-- ==== Sys2Proof/Word.lean ====
section
/-! DEFINITION. The word types of CRCF (00_scope.md R7, R8): a byte, a 32-bit word, a 16-bit command word. -/

namespace Sys2Proof

/-- A byte, 8 bits (R8). -/
abbrev Byte := BitVec 8

/-- A word, 32 bits (R8): a datapath register or a read-port word. -/
abbrev Word := BitVec 32

/-- A command word, 16 bits (R70): a number transferred whole, with no byte order (R57). -/
abbrev CmdWord := BitVec 16

end Sys2Proof
end

