-- ==== Sys2Proof/Syntax.lean ====
section
/-! DEFINITION. The 18 commands of CRCF (30_encoding.md R72), one constructor per row of spec/opcode_table.json. -/

namespace Sys2Proof

/-- A command. A format B command carries its operand `imm8`, a byte of any value (R71); a format Z command carries
nothing (R70). -/
inductive Instr where
  /-- `NOP` (R200) -/
  | nop
  /-- `ECLR` (R201) -/
  | eclr
  /-- `SRST` (R202) -/
  | srst
  /-- `CINIT` (R124) -/
  | cinit
  /-- `CUPD imm8` (R125) -/
  | cupd (imm : Byte)
  /-- `CCALC` (R126) -/
  | ccalc
  /-- `LDT0 imm8` (R100) -/
  | ldt0 (imm : Byte)
  /-- `LDT1 imm8` (R101) -/
  | ldt1 (imm : Byte)
  /-- `LDT2 imm8` (R102) -/
  | ldt2 (imm : Byte)
  /-- `LDT3 imm8` (R103) -/
  | ldt3 (imm : Byte)
  /-- `DCLR` (R141) -/
  | dclr
  /-- `DPUSH imm8` (R142) -/
  | dpush (imm : Byte)
  /-- `SIG` (R181) -/
  | sig
  /-- `EMIT` (R143) -/
  | emit
  /-- `RXSIG` (R183) -/
  | rxsig
  /-- `RXCHUNK` (R160) -/
  | rxchunk
  /-- `RXB imm8` (R161) -/
  | rxb (imm : Byte)
  /-- `RXEOF` (R168) -/
  | rxeof
  deriving DecidableEq, Repr

/-- The mnemonic of a command, as the opcode table spells it (R72). -/
def Instr.mnemonic : Instr → String
  | .nop => "NOP"
  | .eclr => "ECLR"
  | .srst => "SRST"
  | .cinit => "CINIT"
  | .cupd _ => "CUPD"
  | .ccalc => "CCALC"
  | .ldt0 _ => "LDT0"
  | .ldt1 _ => "LDT1"
  | .ldt2 _ => "LDT2"
  | .ldt3 _ => "LDT3"
  | .dclr => "DCLR"
  | .dpush _ => "DPUSH"
  | .sig => "SIG"
  | .emit => "EMIT"
  | .rxsig => "RXSIG"
  | .rxchunk => "RXCHUNK"
  | .rxb _ => "RXB"
  | .rxeof => "RXEOF"

/-- The byte operand of a format B command; a format Z command has none (R70, R71). -/
def Instr.operand? : Instr → Option Byte
  | .nop | .eclr | .srst | .cinit | .ccalc | .dclr | .sig | .emit | .rxsig | .rxchunk | .rxeof => none
  | .cupd b | .ldt0 b | .ldt1 b | .ldt2 b | .ldt3 b | .dpush b | .rxb b => some b

end Sys2Proof
end

