-- ==== Sys2Proof/WellFormed.lean ====
section
/-! DEFINITION. When the two fields of a command word form a command (30_encoding.md R70, R72, R73). The operand of an
`Instr` is a byte by its type, so every term of `Instr` is well-formed; the two checks that can refuse are the checks on
the raw fields. -/

namespace Sys2Proof

/-- The two fields of a command word (R70): nothing else is in it. -/
structure RawCommand where
  op   : Byte
  imm8 : Byte
  deriving DecidableEq, Repr

/-- The two command formats (R70). -/
inductive Format where
  /-- no operand: bits 7:0 must be zero -/
  | z
  /-- a byte operand in bits 7:0 -/
  | b
  deriving DecidableEq, Repr

/-- The opcodes of format B (R77). -/
def opcodesB : List Byte := [0x11#8, 0x20#8, 0x21#8, 0x22#8, 0x23#8, 0x29#8, 0x42#8]

/-- The opcodes of format Z (R77). -/
def opcodesZ : List Byte :=
  [0x00#8, 0x01#8, 0x02#8, 0x10#8, 0x12#8, 0x28#8, 0x30#8, 0x31#8, 0x40#8, 0x41#8, 0x43#8]

/-- The format an opcode selects, none for an opcode that is not listed (R70, R73). -/
def formatOf (op : Byte) : Option Format :=
  if op ∈ opcodesB then some .b else if op ∈ opcodesZ then some .z else none

/-- First check: the opcode is one of the 18 (R73). -/
def RawCommand.opcodeListed (r : RawCommand) : Bool := (formatOf r.op).isSome

/-- Second check: a format Z command has zero in bits 7:0 (R70, R73). -/
def RawCommand.operandAllowed (r : RawCommand) : Bool := !(formatOf r.op == some .z) || r.imm8 == 0#8

/-- The fields form a command: both checks pass. -/
def RawCommand.wellFormed (r : RawCommand) : Bool := r.opcodeListed && r.operandAllowed

/-- The fields of a command (R72): its opcode, and its operand or zero. -/
def Instr.raw (i : Instr) : RawCommand :=
  match i with
  | .nop => ⟨0x00#8, 0x00#8⟩
  | .eclr => ⟨0x01#8, 0x00#8⟩
  | .srst => ⟨0x02#8, 0x00#8⟩
  | .cinit => ⟨0x10#8, 0x00#8⟩
  | .cupd b => ⟨0x11#8, b⟩
  | .ccalc => ⟨0x12#8, 0x00#8⟩
  | .ldt0 b => ⟨0x20#8, b⟩
  | .ldt1 b => ⟨0x21#8, b⟩
  | .ldt2 b => ⟨0x22#8, b⟩
  | .ldt3 b => ⟨0x23#8, b⟩
  | .dclr => ⟨0x28#8, 0x00#8⟩
  | .dpush b => ⟨0x29#8, b⟩
  | .sig => ⟨0x30#8, 0x00#8⟩
  | .emit => ⟨0x31#8, 0x00#8⟩
  | .rxsig => ⟨0x40#8, 0x00#8⟩
  | .rxchunk => ⟨0x41#8, 0x00#8⟩
  | .rxb b => ⟨0x42#8, b⟩
  | .rxeof => ⟨0x43#8, 0x00#8⟩

/-- A command is well-formed when its fields are: true of every term, since an operand is a byte by its type. -/
def Instr.wellFormed (i : Instr) : Bool := i.raw.wellFormed

end Sys2Proof
end

