-- ==== Sys2Proof/Decode.lean ====
section
/-! DEFINITION. The decoder of command words, total on all 65536 words (30_encoding.md R74, R77), and after it the opcode
table (R72) and the encoder. -/

namespace Sys2Proof

/-- Why a word is reserved (R73). -/
inductive ReservedWord where
  /-- the opcode is not one of the 18 listed -/
  | unknownOpcode (op : Byte)
  /-- the opcode is of format Z and bits 7:0 are not zero -/
  | operandNotZero (op imm8 : Byte)
  deriving DecidableEq, Repr

/-- The verdict on a word: a command, or reserved, which is a verdict of its own (R74). -/
inductive Verdict where
  | command (i : Instr)
  | reserved (why : ReservedWord)
  deriving DecidableEq, Repr

/-- Field `op` of a command word, bits 15:8 (R70). -/
def opField (w : CmdWord) : Byte := w.extractLsb' 8 8

/-- Field `imm8` of a command word, bits 7:0 (R70, R71): an unsigned byte, neither extended nor scaled. -/
def immField (w : CmdWord) : Byte := w.extractLsb' 0 8

/-- The command a format B opcode names (R72, R77). -/
def formatB (op : Byte) (imm : Byte) : Option Instr :=
  if op = 0x11#8 then some (.cupd imm)
  else if op = 0x20#8 then some (.ldt0 imm)
  else if op = 0x21#8 then some (.ldt1 imm)
  else if op = 0x22#8 then some (.ldt2 imm)
  else if op = 0x23#8 then some (.ldt3 imm)
  else if op = 0x29#8 then some (.dpush imm)
  else if op = 0x42#8 then some (.rxb imm)
  else none

/-- The command a format Z opcode names (R72, R77). -/
def formatZ (op : Byte) : Option Instr :=
  if op = 0x00#8 then some .nop
  else if op = 0x01#8 then some .eclr
  else if op = 0x02#8 then some .srst
  else if op = 0x10#8 then some .cinit
  else if op = 0x12#8 then some .ccalc
  else if op = 0x28#8 then some .dclr
  else if op = 0x30#8 then some .sig
  else if op = 0x31#8 then some .emit
  else if op = 0x40#8 then some .rxsig
  else if op = 0x41#8 then some .rxchunk
  else if op = 0x43#8 then some .rxeof
  else none

/-- `decode(w)`, R77: format B first, then format Z with its operand check, then reserved. -/
def decode (w : CmdWord) : Verdict :=
  match formatB (opField w) (immField w) with
  | some i => .command i
  | none =>
    match formatZ (opField w) with
    | some i => if immField w = 0#8 then .command i else .reserved (.operandNotZero (opField w) (immField w))
    | none => .reserved (.unknownOpcode (opField w))

/-- The command a verdict holds, if any. -/
def Verdict.instr? : Verdict → Option Instr
  | .command i => some i
  | .reserved _ => none

/-- The decoder on a word numbered as spec/opcode_table.json numbers it: every command is one 16-bit word (R75), bits above
`nbits` are zero, and no row is wider than 16 bits (log entry 10). -/
def decodeTableWord (nbits w : Nat) : Option Instr :=
  if nbits ≤ 16 then (decode (BitVec.ofNat 16 (w % 2 ^ nbits))).instr? else none

/-- A row of the opcode map: a word `w` is the command exactly when `w` masked is the match (R72). -/
structure Row where
  mnemonic  : String
  format    : Format
  mask      : CmdWord
  matchWord : CmdWord
  deriving DecidableEq, Repr

/-- The opcode map of R72, in its order. -/
def opcodeTable : List Row :=
  [⟨"NOP", .z, 0xFFFF#16, 0x0000#16⟩,
   ⟨"ECLR", .z, 0xFFFF#16, 0x0100#16⟩,
   ⟨"SRST", .z, 0xFFFF#16, 0x0200#16⟩,
   ⟨"CINIT", .z, 0xFFFF#16, 0x1000#16⟩,
   ⟨"CUPD", .b, 0xFF00#16, 0x1100#16⟩,
   ⟨"CCALC", .z, 0xFFFF#16, 0x1200#16⟩] ++
  [⟨"LDT0", .b, 0xFF00#16, 0x2000#16⟩,
   ⟨"LDT1", .b, 0xFF00#16, 0x2100#16⟩,
   ⟨"LDT2", .b, 0xFF00#16, 0x2200#16⟩,
   ⟨"LDT3", .b, 0xFF00#16, 0x2300#16⟩,
   ⟨"DCLR", .z, 0xFFFF#16, 0x2800#16⟩,
   ⟨"DPUSH", .b, 0xFF00#16, 0x2900#16⟩] ++
  [⟨"SIG", .z, 0xFFFF#16, 0x3000#16⟩,
   ⟨"EMIT", .z, 0xFFFF#16, 0x3100#16⟩,
   ⟨"RXSIG", .z, 0xFFFF#16, 0x4000#16⟩,
   ⟨"RXCHUNK", .z, 0xFFFF#16, 0x4100#16⟩,
   ⟨"RXB", .b, 0xFF00#16, 0x4200#16⟩,
   ⟨"RXEOF", .z, 0xFFFF#16, 0x4300#16⟩]

/-- A word is the command of a row (R72). -/
def Row.matches (r : Row) (w : CmdWord) : Bool := w &&& r.mask == r.matchWord

/-- The word of a command: `(op << 8) or imm8`, with `imm8 = 0` for format Z (R90). -/
def encode : Instr → CmdWord
  | .nop => 0x0000#16
  | .eclr => 0x0100#16
  | .srst => 0x0200#16
  | .cinit => 0x1000#16
  | .cupd b => 0x11#8 ++ b
  | .ccalc => 0x1200#16
  | .ldt0 b => 0x20#8 ++ b
  | .ldt1 b => 0x21#8 ++ b
  | .ldt2 b => 0x22#8 ++ b
  | .ldt3 b => 0x23#8 ++ b
  | .dclr => 0x2800#16
  | .dpush b => 0x29#8 ++ b
  | .sig => 0x3000#16
  | .emit => 0x3100#16
  | .rxsig => 0x4000#16
  | .rxchunk => 0x4100#16
  | .rxb b => 0x42#8 ++ b
  | .rxeof => 0x4300#16

end Sys2Proof
end

