-- ==== Sys2Proof/Config.lean ====
section
/-! DEFINITION. What an implementation of CRCF fixes: the one open parameter `DATA_MAX` (00_scope.md R6, 92 D7). The spec
leaves no other quantity of the block open and no value in it undefined; the one free value is of a reference function on the
host's side. -/

namespace Sys2Proof

/-- DESIGN CHOICE (log entry 1, unsafe for claims about the reset value of `CAP`): the value of `DATA_MAX` in
`State.reset`, the one R6 recommends. Every other definition takes `DATA_MAX` from the state, so a claim about all states
is a claim about every value of the parameter. -/
def Config.dataMax : Word := 0xFFFFFFFF#32

/-- The legal range of `DATA_MAX`, 1 to 2^32 - 1 (R6): of the 32-bit values, all but zero. -/
def Config.legalDataMax (n : Word) : Bool := n != 0#32

/-- A free value (log entry 12): the frame of a chunk whose data are 2^32 bytes or longer, which the spec leaves open (91 N8:
truncate, wrap or fail, nothing to be assumed). No step of the machine and no chunk that CRCF can hold comes to it. -/
opaque Config.longFrame : List Byte → List Byte → List Byte

end Sys2Proof
end

