-- ==== Sys2Proof/Machine/State.lean ====
section
/-! DEFINITION. The state of CRCF as plain data (10_state.md R20), the reasons a step of the model can stop, and the state
after reset (R42). The four last fields of `State` are the model's own, named in the log: the capacity parameter, the
history of `OUT`, and what the host is about to do. -/

namespace Sys2Proof.Machine

/-- `T`, the type register: four bytes, `T[0]` the first on the wire (R21). -/
structure TypeReg where
  b0 : Byte
  b1 : Byte
  b2 : Byte
  b3 : Byte
  deriving DecidableEq, Repr

/-- `PHASE`: which field of which operation is in progress (R28). Codes 13 to 15 are never entered, and the type does not
have them (93 V3). -/
inductive Phase where
  | idle
  | txSig | txLen | txType | txData | txCrc
  | ccType | ccData
  | rxSig | rxLen | rxType | rxData | rxCrc
  deriving DecidableEq, Repr

/-- `ERR`: the latched error kind (R31, 60_exceptions.md R251). Codes 1, 2 and 6 are the host's and 7, 11 to 15 are never
written, so the type does not have them (93 V2). -/
inductive Err where
  | none
  | unexpectedEof
  | crcMismatch
  | invalidSignature
  | illegalCommand
  | badSequence
  | overflow
  deriving DecidableEq, Repr

/-- One sample of the reset input, taken by one step (R13, R290). -/
inductive ResetSample where
  /-- the input is released: the step is a command step, a sequencer step or a wait -/
  | released
  /-- the input is asserted: the step is a reset step; `withdraw` says whether the host takes back the word it is holding
  (R290: it "is offered again, or withdrawn, as the host chooses") -/
  | asserted (withdraw : Bool)
  deriving DecidableEq, Repr

/-- `D`: the bytes of the payload buffer that have been written since it was last emptied, as (address, byte) cells, the
addresses strictly rising (20_memory.md R50, R53, R54). An address that is not listed holds no value (10_state.md R35; log entry 11). -/
abbrev Memory := List Host.Cell

/-- The state of the machine: R20's registers, then the model's own fields. -/
structure State where
  /-- `T[0..3]`, the type register (R21) -/
  t : TypeReg
  /-- `C`, the raw CRC accumulator, before the final XOR (R22) -/
  c : Word
  /-- `LEN`, the number of valid bytes in `D` (R23) -/
  len : Word
  /-- `D`, the payload buffer (R50) -/
  d : Memory
  /-- `RXLEN`, the length field received (R24) -/
  rxlen : Word
  /-- `RXCRC`, the crc field received (R25) -/
  rxcrc : Word
  /-- `PHASE` (R28) -/
  phase : Phase
  /-- `IDX`, the byte index within the phase (R27) -/
  idx : Word
  /-- `ERR`, the error latch (R31) -/
  err : Err
  /-- the model's own: the value of the parameter `DATA_MAX` (R6); no step changes it (log entry 1) -/
  dataMax : Word
  /-- the model's own: the bytes emitted on `OUT` so far, in order (R36; log entry 2) -/
  out : List Byte
  /-- the model's own: the command words the host has still to have accepted, the first on the port (R15; log entry 3) -/
  words : List CmdWord
  /-- the model's own: the samples of the reset input for the coming steps; none left means released (log entry 4) -/
  rst : List ResetSample
  deriving DecidableEq, Repr

/-- Why the machine stops. Each is raised only in a state that no run reaches (R41), where the spec gives the access no
meaning. -/
inductive Fault where
  /-- The sequencer reads `D[addr]` where the buffer holds no value: phases `TX_DATA` and `CC_DATA` with `IDX` at or above
  `LEN` (R52). Safe. -/
  | bufferByteAbsent (addr : Nat)
  /-- A byte is appended at an address that does not exist, at or above `DATA_MAX`: `DPUSH` with `LEN > DATA_MAX`, `RXB` in
  phase `RX_DATA` with `LEN >= DATA_MAX` (R39, R53). Safe. -/
  | bufferAddressAbsent (addr : Nat)
  /-- `IDX` names a byte beyond the field the phase moves: `T[i]`, `be32_byte(v, i)` with `i > 3`, `SIGNATURE[i]` with
  `i > 7` (R10, R30). Safe. -/
  | fieldByteAbsent (phase : Phase) (idx : Nat)
  deriving DecidableEq, Repr

/-- Why the model gives an instruction no meaning. -/
inductive Refusal where
  /-- An instruction of the table that is not modelled, rejected by name in exec's arm: none is left. Safe. -/
  | notModelled (mnemonic : String)
  deriving DecidableEq, Repr

/-- What a step or a meaning answers. -/
abbrev Result := Host.Outcome State Fault Refusal

/-- The state after reset (R42) of a block whose capacity is `dataMax`, with nothing emitted yet and a host that has
nothing to send (log entries 1 to 4). -/
def State.resetWith (dataMax : Word) : State where
  t       := ⟨0x00#8, 0x00#8, 0x00#8, 0x00#8⟩
  c       := 0xFFFFFFFF#32
  len     := 0#32
  d       := []
  rxlen   := 0#32
  rxcrc   := 0#32
  phase   := .idle
  idx     := 0#32
  err     := .none
  dataMax := dataMax
  out     := []
  words   := []
  rst     := []

/-- The machine right after reset (R42). -/
def State.reset : State := State.resetWith Config.dataMax

end Sys2Proof.Machine
end

