-- ==== Sys2Proof/Machine/Flags.lean ====
section
/-! DEFINITION. The six type flags, pure functions of `T` (40_chunk_type.md R104 to R110), and the numeric codes of `PHASE`
and `ERR` (10_state.md R28, 60_exceptions.md R251). -/

namespace Sys2Proof.Machine

/-- `CRIT`, R104. -/
def TypeReg.crit (t : TypeReg) : Bool := !t.b0.getLsbD 5

/-- `PUB`, R105. -/
def TypeReg.pub (t : TypeReg) : Bool := !t.b1.getLsbD 5

/-- `PRIV`, R106. -/
def TypeReg.priv (t : TypeReg) : Bool := t.b1.getLsbD 5

/-- `RSVOK`, R107. -/
def TypeReg.rsvok (t : TypeReg) : Bool := !t.b2.getLsbD 5

/-- `SAFE`, R108. -/
def TypeReg.safe (t : TypeReg) : Bool := t.b3.getLsbD 5

/-- `is_letter(b)`, R110. -/
def isLetter (b : Byte) : Bool := (0x41#8 ≤ b && b ≤ 0x5A#8) || (0x61#8 ≤ b && b ≤ 0x7A#8)

/-- `VALID`, R109. -/
def TypeReg.valid (t : TypeReg) : Bool :=
  isLetter t.b0 && isLetter t.b1 && isLetter t.b2 && isLetter t.b3 && t.rsvok

/-- The 4-bit code of a phase, R28. -/
def Phase.code : Phase → BitVec 4
  | .idle => 0#4
  | .txSig => 1#4
  | .txLen => 2#4
  | .txType => 3#4
  | .txData => 4#4
  | .txCrc => 5#4
  | .ccType => 6#4
  | .ccData => 7#4
  | .rxSig => 8#4
  | .rxLen => 9#4
  | .rxType => 10#4
  | .rxData => 11#4
  | .rxCrc => 12#4

/-- The 4-bit code of an error kind, R251. -/
def Err.code : Err → BitVec 4
  | .none => 0#4
  | .unexpectedEof => 3#4
  | .crcMismatch => 4#4
  | .invalidSignature => 5#4
  | .illegalCommand => 8#4
  | .badSequence => 9#4
  | .overflow => 10#4

/-- The autonomous phases of R29: the sequencer step is enabled and
the command port is not ready. -/
def Phase.autonomous : Phase → Bool
  | .txSig | .txLen | .txType | .txData | .txCrc | .ccType | .ccData => true
  | .idle | .rxSig | .rxLen | .rxType | .rxData | .rxCrc => false

/-- The waiting phases of R29: the sequencer advances only on `RXB` or `RXEOF`. -/
def Phase.waiting : Phase → Bool
  | .rxSig | .rxLen | .rxType | .rxData | .rxCrc => true
  | .idle | .txSig | .txLen | .txType | .txData | .txCrc | .ccType | .ccData => false

end Sys2Proof.Machine
end

