-- ==== Sys2Proof/Machine/Operands.lean ====
section
/-! DEFINITION. Operand forms: the big-endian byte views of a word (00_scope.md R10, 20_memory.md R55), the bytes of the type
register, the signature, and the byte of a field that `IDX` names. -/

namespace Sys2Proof.Machine

/-- `be32_byte(v, i)`, R10: byte `i` of the big-endian view of `v`. -/
def be32Byte (v : Word) (i : Nat) : Byte := (v >>> (8 * (3 - i))).setWidth 8

/-- `be32(v)`, R10: the four bytes of `v`, the most significant first. -/
def be32 (v : Word) : List Byte := [be32Byte v 0, be32Byte v 1, be32Byte v 2, be32Byte v 3]

/-- `from_be32([b0, b1, b2, b3])`, R10. -/
def fromBe32 (b0 b1 b2 b3 : Byte) : Word :=
  (b0.setWidth 32 <<< 24) ||| (b1.setWidth 32 <<< 16) ||| (b2.setWidth 32 <<< 8) ||| b3.setWidth 32

/-- A byte shifted into a 32-bit register from the right: `((v << 8) or zext_32(b))[31:0]` (R163, R167). -/
def shiftIn (v : Word) (b : Byte) : Word := (v <<< 8) ||| b.setWidth 32

/-- The four bytes of `T` in tag order (R21). -/
def TypeReg.bytes (t : TypeReg) : List Byte := [t.b0, t.b1, t.b2, t.b3]

/-- `T[i] <- v` (R11). -/
def TypeReg.set (t : TypeReg) (i : Fin 4) (v : Byte) : TypeReg :=
  match i with
  | 0 => { t with b0 := v }
  | 1 => { t with b1 := v }
  | 2 => { t with b2 := v }
  | 3 => { t with b3 := v }

/-- `SIGNATURE`, R180. -/
def signature : List Byte := [0x89#8, 0x50#8, 0x4E#8, 0x47#8, 0x0D#8, 0x0A#8, 0x1A#8, 0x0A#8]

/-- Goes on with the byte of a field that `IDX` names. A byte beyond the field does not exist: a fault, in no reachable
state (R30; log entry 5). -/
def withFieldByte (field : List Byte) (s : State) (k : Byte → Result) : Result :=
  match field[s.idx.toNat]? with
  | some b => k b
  | none => .fault (.fieldByteAbsent s.phase s.idx.toNat)

/-- Goes on with `IDX` as an index of `T`. There is no `T[i]` beyond 3: a fault, in no reachable state (R30; log entry 5). -/
def withTypeIndex (s : State) (k : Fin 4 → Result) : Result :=
  if h : s.idx.toNat < 4 then k ⟨s.idx.toNat, h⟩ else .fault (.fieldByteAbsent s.phase s.idx.toNat)

end Sys2Proof.Machine
end

