-- ==== Sys2Proof/Machine/Ops.lean ====
section
/-! DEFINITION. The named operations over the payload buffer and the registers, raising an error and clearing it, the reset
of the registers, and the dispatch every command passes through (30_encoding.md R78). -/

namespace Sys2Proof.Machine

/-! ### The payload buffer -/

/-- The byte an address holds, none where nothing has been written since the buffer was last emptied. -/
def Memory.read : Memory → Nat → Option Byte
  | [], _ => none
  | (a, v) :: m, n => if a = n then some v else Memory.read m n

/-- The buffer with `v` at address `n`, in the canonical form: addresses strictly rising. -/
def Memory.write : Memory → Nat → Byte → Memory
  | [], n, v => [(n, v)]
  | (a, w) :: m, n, v =>
    if n < a then (n, v) :: (a, w) :: m
    else if n = a then (n, v) :: m
    else (a, w) :: Memory.write m n v

/-- The canonical form: addresses strictly rising, and (so that equal buffers are equal data) nothing else. -/
def Memory.wf : Memory → Bool
  | [] => true
  | [_] => true
  | (a, _) :: (b, v) :: m => a < b && Memory.wf ((b, v) :: m)

/-- The buffer that holds a byte sequence from address `k` on. -/
def Memory.ofBytesAt : Nat → List Byte → Memory
  | _, [] => []
  | k, b :: bs => (k, b) :: Memory.ofBytesAt (k + 1) bs

/-- `D[i]`, legal only for `i < LEN` (20_memory.md R52): the buffer read port (10_state.md R35). Where `i >= LEN` the read
is refused: no value. -/
def State.readBuffer (s : State) (i : Word) : Option Byte :=
  if i < s.len then Memory.read s.d i.toNat else none

/-- `D[0..LEN)`, the payload (10_state.md R43). -/
def State.payload (s : State) : List Byte := (List.range s.len.toNat).filterMap (Memory.read s.d)

/-- `D[LEN] <- v; LEN <- LEN + 1` (20_memory.md R53). -/
def State.appendByte (s : State) (v : Byte) : State :=
  { s with d := Memory.write s.d s.len.toNat v, len := s.len + 1#32 }

/-- The buffer emptied: `LEN <- 0`, and no byte has a value any more (20_memory.md R54). -/
def State.emptyBuffer (s : State) : State := { s with len := 0#32, d := [] }

/-- Goes on with `D[IDX]`. A byte at or above `LEN` holds no value: a fault, in no reachable state (R41; log entry 5). -/
def withBufferByte (s : State) (k : Byte → Result) : Result :=
  match s.readBuffer s.idx with
  | some b => k b
  | none => .fault (.bufferByteAbsent s.idx.toNat)

/-- Goes on with the byte appended. `D[LEN]` exists only for `LEN < DATA_MAX` (10_state.md R39): else a fault, in no
reachable state (R41; log entry 5). -/
def withAppended (s : State) (v : Byte) (k : State → Result) : Result :=
  if s.len < s.dataMax then k (s.appendByte v) else .fault (.bufferAddressAbsent s.len.toNat)

/-! ### Registers -/

/-- `goto P, i` (00_scope.md R11). -/
def State.goto (s : State) (p : Phase) (i : Word) : State := { s with phase := p, idx := i }

/-- `emit(b)` (10_state.md R36). -/
def State.emit (s : State) (b : Byte) : State := { s with out := s.out ++ [b] }

/-- `C <- 0xFFFFFFFF` (41_crc.md R124). -/
def State.seedCrc (s : State) : State := { s with c := crcSeed }

/-- `C <- crc_upd(C, b)` (41_crc.md R125). -/
def State.foldByte (s : State) (b : Byte) : State := { s with c := crcUpd s.c b }

/-- `T[i] <- v` (40_chunk_type.md R100 to R103, 43_deframer.md R165). -/
def State.loadType (s : State) (i : Fin 4) (v : Byte) : State := { s with t := s.t.set i v }

/-- `RXLEN` and `RXCRC` cleared (43_deframer.md R160). -/
def State.clearRx (s : State) : State := { s with rxlen := 0#32, rxcrc := 0#32 }

/-- A length byte shifted into `RXLEN` (43_deframer.md R163). -/
def State.shiftLen (s : State) (b : Byte) : State := { s with rxlen := shiftIn s.rxlen b }

/-- A crc byte shifted into `RXCRC` (43_deframer.md R167). -/
def State.shiftCrc (s : State) (b : Byte) : State := { s with rxcrc := shiftIn s.rxcrc b }

/-! ### Errors: the trap entry of CRCF and the return from it -/

/-- `raise E` (60_exceptions.md R255): the kind is latched and the sequencer goes to `IDLE`; nothing else changes. -/
def State.raise (s : State) (e : Err) : State := { s with err := e, phase := .idle, idx := 0#32 }

/-- `ERR <- NONE` (45_control.md R201), the return from the faulted state (60_exceptions.md R264). -/
def State.clearError (s : State) : State := { s with err := .none }

/-! ### Reset -/

/-- Every register takes its reset value (10_state.md R42): the effect of `SRST` (R202) and of the reset step (R290). What
is not a register stays: the parameter, the history of `OUT`, and the host's words and samples. -/
def State.resetRegisters (s : State) : State :=
  { State.resetWith s.dataMax with out := s.out, words := s.words, rst := s.rst }

/-! ### Dispatch -/

/-- Where the dispatch rule lets a command be performed (30_encoding.md R78). -/
inductive Legality where
  /-- performed in `IDLE`, in every waiting phase, and while `ERR != NONE`: `ECLR`, `SRST` -/
  | always
  /-- performed in `IDLE` and in every waiting phase: `NOP`, `RXB`, `RXEOF` -/
  | anyPhase
  /-- performed in `IDLE` only; raises `BadSequence` in a waiting phase -/
  | idleOnly
  deriving DecidableEq, Repr

/-- The command step of R78 for a decoded command: held in an autonomous phase (no change, log entry 7), dropped while `ERR != NONE`
unless the command is `ECLR` or `SRST`, `BadSequence` in a waiting phase where it is not legal there, else performed. -/
def accept (l : Legality) (perform : State → Result) (s : State) : Result :=
  if s.phase.autonomous then .next s
  else if s.err ≠ .none then (if l = .always then perform s else .next s)
  else if s.phase.waiting ∧ l = .idleOnly then .next (s.raise .badSequence)
  else perform s

/-- The command step of R78 for a reserved word: held, dropped, or `IllegalCommand` (R74, 60_exceptions.md R260). -/
def acceptReserved (s : State) : Result :=
  if s.phase.autonomous then .next s
  else if s.err ≠ .none then .next s
  else .next (s.raise .illegalCommand)

end Sys2Proof.Machine
end

