-- ==== Sys2Proof/Machine/ChunkType.lean ====
section
/-! DEFINITION. Loading the type register: `LDT0` to `LDT3` (40_chunk_type.md R100 to R103). Any byte value is accepted; the
type flags follow `T` and gate nothing (R111). -/

namespace Sys2Proof.Machine

/-- `LDT0 imm8`, R100: `T[0] <- imm8`. -/
def execLdt0 (imm : Byte) (s : State) : Result := accept .idleOnly (fun s => .next (s.loadType 0 imm)) s

/-- `LDT1 imm8`, R101: `T[1] <- imm8`. -/
def execLdt1 (imm : Byte) (s : State) : Result := accept .idleOnly (fun s => .next (s.loadType 1 imm)) s

/-- `LDT2 imm8`, R102: `T[2] <- imm8`. -/
def execLdt2 (imm : Byte) (s : State) : Result := accept .idleOnly (fun s => .next (s.loadType 2 imm)) s

/-- `LDT3 imm8`, R103: `T[3] <- imm8`. -/
def execLdt3 (imm : Byte) (s : State) : Result := accept .idleOnly (fun s => .next (s.loadType 3 imm)) s

end Sys2Proof.Machine
end

