-- ==== Sys2Proof/Machine/Control.lean ====
section
/-! DEFINITION. The control commands `NOP`, `ECLR`, `SRST` (45_control.md). -/

namespace Sys2Proof.Machine

/-- `NOP`, R200: nothing. -/
def execNop (s : State) : Result := accept .anyPhase (fun s => .next s) s

/-- `ECLR`, R201: `ERR <- NONE` and nothing else. -/
def execEclr (s : State) : Result := accept .always (fun s => .next s.clearError) s

/-- `SRST`, R202: every register takes its reset value. -/
def execSrst (s : State) : Result := accept .always (fun s => .next s.resetRegisters) s

end Sys2Proof.Machine
end

