-- ==== Sys2Proof/Machine/CrcUnit.lean ====
section
/-! DEFINITION. The CRC unit: `CINIT`, `CUPD`, `CCALC` and the phases `CC_TYPE`, `CC_DATA` (41_crc.md). -/

namespace Sys2Proof.Machine

/-- `CINIT`, R124: `C <- 0xFFFFFFFF`. -/
def execCinit (s : State) : Result := accept .idleOnly (fun s => .next s.seedCrc) s

/-- `CUPD imm8`, R125: `C <- crc_upd(C, imm8)`. -/
def execCupd (imm : Byte) (s : State) : Result := accept .idleOnly (fun s => .next (s.foldByte imm)) s

/-- `CCALC`, R126: seed, then phase `CC_TYPE`. -/
def execCcalc (s : State) : Result := accept .idleOnly (fun s => .next (s.seedCrc.goto .ccType 0#32)) s

/-- The sequencer step in phase `CC_TYPE`, R127. -/
def seqCcType (s : State) : Result :=
  withFieldByte s.t.bytes s fun b =>
    let u := s.foldByte b
    if s.idx < 3#32 then .next (u.goto .ccType (s.idx + 1#32))
    else if s.len = 0#32 then .next (u.goto .idle 0#32)
    else .next (u.goto .ccData 0#32)

/-- The sequencer step in phase `CC_DATA`, R128. -/
def seqCcData (s : State) : Result :=
  withBufferByte s fun b =>
    let u := s.foldByte b
    if s.idx + 1#32 = s.len then .next (u.goto .idle 0#32)
    else .next (u.goto .ccData (s.idx + 1#32))

end Sys2Proof.Machine
end

