-- ==== Sys2Proof/Machine/Signature.lean ====
section
/-! DEFINITION. The file signature: `SIG`, `RXSIG`, the phase `TX_SIG` and the `RX_SIG` arm of `RXB` (44_file_stream.md). -/

namespace Sys2Proof.Machine

/-- `SIG`, R181: phase `TX_SIG`. -/
def execSig (s : State) : Result := accept .idleOnly (fun s => .next (s.goto .txSig 0#32)) s

/-- `RXSIG`, R183: phase `RX_SIG`. -/
def execRxsig (s : State) : Result := accept .idleOnly (fun s => .next (s.goto .rxSig 0#32)) s

/-- The sequencer step in phase `TX_SIG`, R182. -/
def seqTxSig (s : State) : Result :=
  withFieldByte signature s fun b =>
    let u := s.emit b
    if s.idx < 7#32 then .next (u.goto .txSig (s.idx + 1#32)) else .next (u.goto .idle 0#32)

/-- `RXB` in phase `RX_SIG`, R184: the byte compared with `SIGNATURE[IDX]`. -/
def rxbSig (b : Byte) (s : State) : Result :=
  withFieldByte signature s fun want =>
    if b ≠ want then .next (s.raise .invalidSignature)
    else if s.idx < 7#32 then .next (s.goto .rxSig (s.idx + 1#32))
    else .next (s.goto .idle 0#32)

end Sys2Proof.Machine
end

