-- ==== Sys2Proof/Machine/Deframer.lean ====
section
/-! DEFINITION. The deframer: `RXCHUNK`, `RXB`, `RXEOF` and the phases `RX_LEN`, `RX_TYPE`, `RX_DATA`, `RX_CRC`
(43_deframer.md). -/

namespace Sys2Proof.Machine

/-- `RXCHUNK`, R160: seed, empty the buffer, clear `RXLEN` and `RXCRC`, then phase `RX_LEN`. -/
def execRxchunk (s : State) : Result :=
  accept .idleOnly (fun s => .next (s.seedCrc.emptyBuffer.clearRx.goto .rxLen 0#32)) s

/-- `RXB` in phase `RX_LEN`, R163. -/
def rxbLen (b : Byte) (s : State) : Result :=
  let u := s.shiftLen b
  if s.idx < 3#32 then .next (u.goto .rxLen (s.idx + 1#32))
  else if u.dataMax < u.rxlen then .next (u.raise .overflow)
  else .next (u.goto .rxType 0#32)

/-- `RXB` in phase `RX_TYPE`, R165: any byte value is stored. -/
def rxbType (b : Byte) (s : State) : Result :=
  withTypeIndex s fun i =>
    let u := (s.loadType i b).foldByte b
    if s.idx < 3#32 then .next (u.goto .rxType (s.idx + 1#32))
    else if u.rxlen = 0#32 then .next (u.goto .rxCrc 0#32)
    else .next (u.goto .rxData 0#32)

/-- `RXB` in phase `RX_DATA`, R166. -/
def rxbData (b : Byte) (s : State) : Result :=
  withAppended s b fun u =>
    let v := u.foldByte b
    if v.len = v.rxlen then .next (v.goto .rxCrc 0#32) else .next (v.goto .rxData (s.idx + 1#32))

/-- `RXB` in phase `RX_CRC`, R167: on the fourth byte the received crc is compared with the recomputed one. -/
def rxbCrc (b : Byte) (s : State) : Result :=
  let u := s.shiftCrc b
  if s.idx < 3#32 then .next (u.goto .rxCrc (s.idx + 1#32))
  else if u.rxcrc ≠ crcFinal u.c then .next (u.raise .crcMismatch)
  else .next (u.goto .idle 0#32)

/-- `RXB imm8`, R161, by phase. In an autonomous phase the command is held and this rule does not run. -/
def execRxb (imm : Byte) (s : State) : Result :=
  accept .anyPhase (fun s =>
    match s.phase with
    | .idle => .next (s.raise .badSequence)
    | .rxSig => rxbSig imm s
    | .rxLen => rxbLen imm s
    | .rxType => rxbType imm s
    | .rxData => rxbData imm s
    | .rxCrc => rxbCrc imm s
    | .txSig | .txLen | .txType | .txData | .txCrc | .ccType | .ccData => .next s) s

/-- `RXEOF`, R168, by phase; `InvalidSignature` inside the signature (44_file_stream.md R185). In an autonomous phase the
command is held and this rule does not run. -/
def execRxeof (s : State) : Result :=
  accept .anyPhase (fun s =>
    match s.phase with
    | .idle => .next s
    | .rxSig => .next (s.raise .invalidSignature)
    | .rxLen | .rxType | .rxData | .rxCrc => .next (s.raise .unexpectedEof)
    | .txSig | .txLen | .txType | .txData | .txCrc | .ccType | .ccData => .next s) s

end Sys2Proof.Machine
end

