-- ==== Sys2Proof/Machine/Framer.lean ====
section
/-! DEFINITION. The payload buffer and the framer: `DCLR`, `DPUSH`, `EMIT` and the phases `TX_LEN`, `TX_TYPE`, `TX_DATA`,
`TX_CRC` (42_framer.md); the frame as a function (R144). -/

namespace Sys2Proof.Machine

/-- `DCLR`, R141: the buffer emptied. -/
def execDclr (s : State) : Result := accept .idleOnly (fun s => .next s.emptyBuffer) s

/-- `DPUSH imm8`, R142: `Overflow` when the buffer is full, else the byte appended. -/
def execDpush (imm : Byte) (s : State) : Result :=
  accept .idleOnly (fun s =>
    if s.len = s.dataMax then .next (s.raise .overflow) else withAppended s imm fun u => .next u) s

/-- `EMIT`, R143: seed, then phase `TX_LEN`. -/
def execEmit (s : State) : Result := accept .idleOnly (fun s => .next (s.seedCrc.goto .txLen 0#32)) s

/-- The sequencer step in phase `TX_LEN`, R145: the length bytes are not folded into `C`. -/
def seqTxLen (s : State) : Result :=
  withFieldByte (be32 s.len) s fun b =>
    let u := s.emit b
    if s.idx < 3#32 then .next (u.goto .txLen (s.idx + 1#32)) else .next (u.goto .txType 0#32)

/-- The sequencer step in phase `TX_TYPE`, R146. -/
def seqTxType (s : State) : Result :=
  withFieldByte s.t.bytes s fun b =>
    let u := (s.emit b).foldByte b
    if s.idx < 3#32 then .next (u.goto .txType (s.idx + 1#32))
    else if s.len = 0#32 then .next (u.goto .txCrc 0#32)
    else .next (u.goto .txData 0#32)

/-- The sequencer step in phase `TX_DATA`, R147. -/
def seqTxData (s : State) : Result :=
  withBufferByte s fun b =>
    let u := (s.emit b).foldByte b
    if s.idx + 1#32 = s.len then .next (u.goto .txCrc 0#32) else .next (u.goto .txData (s.idx + 1#32))

/-- The sequencer step in phase `TX_CRC`, R148: `C` is not changed. -/
def seqTxCrc (s : State) : Result :=
  withFieldByte (be32 (crcFinal s.c)) s fun b =>
    let u := s.emit b
    if s.idx < 3#32 then .next (u.goto .txCrc (s.idx + 1#32)) else .next (u.goto .idle 0#32)

/-- `frame(t, d)`, R144: the wire format of a chunk (30_encoding.md R81). R144 defines it for `|d| <= 2^32 - 1`; for longer data
it is a free value (91 N8; log entry 12). -/
def frame (t d : List Byte) : List Byte :=
  if d.length < 0x100000000 then be32 (BitVec.ofNat 32 d.length) ++ t ++ d ++ be32 (crc32 (t ++ d))
  else Config.longFrame t d

end Sys2Proof.Machine
end

