-- ==== Sys2Proof/Machine/Dispatch.lean ====
section
/-! DEFINITION. The dispatch of a decoded command to its meaning, one arm per constructor of `Instr`. Each meaning passes
through `accept` (Machine/Ops.lean), the dispatch rule R78. -/

namespace Sys2Proof.Machine

def exec (i : Instr) (s : State) : Host.Outcome State Fault Refusal :=
  match i with
  | .nop => Sys2Proof.Machine.execNop s
  | .eclr => Sys2Proof.Machine.execEclr s
  | .srst => Sys2Proof.Machine.execSrst s
  | .cinit => Sys2Proof.Machine.execCinit s
  | .cupd imm => Sys2Proof.Machine.execCupd imm s
  | .ccalc => Sys2Proof.Machine.execCcalc s
  | .ldt0 imm => Sys2Proof.Machine.execLdt0 imm s
  | .ldt1 imm => Sys2Proof.Machine.execLdt1 imm s
  | .ldt2 imm => Sys2Proof.Machine.execLdt2 imm s
  | .ldt3 imm => Sys2Proof.Machine.execLdt3 imm s
  | .dclr => Sys2Proof.Machine.execDclr s
  | .dpush imm => Sys2Proof.Machine.execDpush imm s
  | .sig => Sys2Proof.Machine.execSig s
  | .emit => Sys2Proof.Machine.execEmit s
  | .rxsig => Sys2Proof.Machine.execRxsig s
  | .rxchunk => Sys2Proof.Machine.execRxchunk s
  | .rxb imm => Sys2Proof.Machine.execRxb imm s
  | .rxeof => Sys2Proof.Machine.execRxeof s

end Sys2Proof.Machine
end

