-- ==== Sys2Proof/Machine/Cycle.lean ====
section
/-! DEFINITION. The three kinds of step of the model (00_scope.md R13): the reset step, the sequencer step and the command
step, and which of them the machine takes next (R14, R15). -/

namespace Sys2Proof.Machine

/-- The sequencer step, by phase (R13). In a phase that is not autonomous it is not enabled and nothing moves. -/
def seqStep (s : State) : Result :=
  match s.phase with
  | .txSig => seqTxSig s
  | .txLen => seqTxLen s
  | .txType => seqTxType s
  | .txData => seqTxData s
  | .txCrc => seqTxCrc s
  | .ccType => seqCcType s
  | .ccData => seqCcData s
  | .idle | .rxSig | .rxLen | .rxType | .rxData | .rxCrc => .next s

/-- The command step `cmd(w)` (30_encoding.md R78): the decoded command, or the treatment of a reserved word. -/
def cmdStep (w : CmdWord) (s : State) : Result :=
  match decode w with
  | .command i => exec i s
  | .reserved _ => acceptReserved s

/-- The reset step (70_reset_and_hazards.md R290). The word the host was holding is still with the host, which offers it
again or withdraws it. -/
def resetStep (withdraw : Bool) (s : State) : State :=
  let u := s.resetRegisters
  if withdraw then { u with words := u.words.tail } else u

/-- What the machine does while reset is released (R15): in an autonomous phase the sequencer step, a word on the port being
held; otherwise the command step with the next word; with no word left CRCF has no enabled step and waits for the host
(60_exceptions.md R275; log entry 3). -/
def runStep (s : State) : Result :=
  if s.phase.autonomous then seqStep s
  else
    match s.words with
    | [] => .next s
    | w :: ws => cmdStep w { s with words := ws }

/-- One step of the machine: it takes one sample of the reset input (log entry 4). -/
def cycle (s : State) : Result :=
  match s.rst with
  | [] => runStep s
  | .released :: r => runStep { s with rst := r }
  | .asserted withdraw :: r => .next (resetStep withdraw { s with rst := r })

/-- The state in which the very next step accepts the word `w`: the word is put first on the port, the next sample of the
reset input is a release, and a phase that would hold the word is left for `IDLE`. Nothing else changes. -/
def placeWord (w : CmdWord) (s : State) : State :=
  let u := if s.phase.autonomous then s.goto .idle 0#32 else s
  { u with
    words := w :: s.words
    rst := match s.rst with
      | [] => []
      | _ :: r => .released :: r }

end Sys2Proof.Machine
end

