-- ==== Sys2Proof/Machine/Step.lean ====
section
/-! DEFINITION. The step of the machine, and how the host places the word the next step runs. Both only call
Machine/Cycle.lean. -/

namespace Sys2Proof.Machine

/-- One step: a next state or a fault (no refusal is left). -/
def step (s : State) : Host.Outcome State Fault Refusal := Sys2Proof.Machine.cycle s

/-- The state with the word `w`, of `nbits` bits (every command is one 16-bit word, R75), where `step` takes its next
command: first on the command port (log entry 3). -/
def State.withFetchWord (s : State) (nbits w : Nat) : State :=
  Sys2Proof.Machine.placeWord (BitVec.ofNat 16 (w % 2 ^ min nbits 16)) s

end Sys2Proof.Machine
end

