-- ==== Sys2Proof/Machine/Assembler.lean ====
section
/-! DEFINITION. The assembler (30_encoding.md R90, R91; 92 D23): the lines of a program, their expansion into commands, the text
form of a line. It is the host's tool; no step of the machine uses it. What the spec leaves open in the text form is in
log entry 8. -/

namespace Sys2Proof.Machine

/-- One line of a program: a command (R90) or a pseudo-instruction (R91). -/
inductive Source where
  | command (i : Instr)
  | ldt (tag : List Byte)
  | dload (bytes : List Byte)
  | chunk (tag bytes : List Byte)
  | crcof (bytes : List Byte)
  | rxbytes (bytes : List Byte)
  deriving DecidableEq, Repr

/-- A tag that is not exactly 4 bytes is rejected (R91). -/
def Source.wellFormed : Source → Bool
  | .ldt tag => tag.length == 4
  | .chunk tag _ => tag.length == 4
  | .command _ | .dload _ | .crcof _ | .rxbytes _ => true

/-- `LDT b0 b1 b2 b3` expanded; none for a tag that is not exactly 4 bytes (R91). -/
def expandLdt : List Byte → Option (List Instr)
  | [b0, b1, b2, b3] => some [.ldt0 b0, .ldt1 b1, .ldt2 b2, .ldt3 b3]
  | _ => none

/-- `DLOAD` expanded: `DCLR`, then one `DPUSH` per byte (R91). -/
def expandDload (bytes : List Byte) : List Instr := .dclr :: bytes.map .dpush

/-- The expansion of a line (R91). -/
def Source.expand : Source → Option (List Instr)
  | .command i => some [i]
  | .ldt tag => expandLdt tag
  | .dload bytes => some (expandDload bytes)
  | .chunk tag bytes => (expandLdt tag).map fun p => p ++ expandDload bytes ++ [.emit]
  | .crcof bytes => some (.cinit :: bytes.map .cupd)
  | .rxbytes bytes => some (bytes.map .rxb)

/-- A program assembled: the words of its lines' expansions, in order (R90); none when a line is rejected. -/
def assemble : List Source → Option (List CmdWord)
  | [] => some []
  | l :: ls =>
    match l.expand, assemble ls with
    | some p, some ws => some (p.map encode ++ ws)
    | _, _ => none

/-! ### The text form -/

/-- A piece of a line: a run of plain characters, one quoted character, or a quoted string. -/
inductive Token where
  | plain (cs : List Char)
  | quoted (c : Char)
  | text (cs : List Char)
  deriving DecidableEq, Repr

/-- A run of plain characters closed (`acc` holds it in reverse), before the tokens that follow. -/
def closeRun (acc : List Char) (rest : List Token) : List Token :=
  if acc.isEmpty then rest else .plain acc.reverse :: rest

/-- A scan's result with its tokens changed; the text left over stays. -/
def onTokens (f : List Token → List Token) (r : Option (List Token × List Char)) : Option (List Token × List Char) :=
  r.map fun p => (f p.1, p.2)

/-- The tokens of a line up to its first `;` outside quotes, and the text after that `;` (none: the empty text). Space, tab and
comma separate, `'c'` is one character, `"..."` a string. A quote needs no separator before or after it, and there is no
escape (log entry 8). The first argument says whether the scan is inside a string; the second holds the characters read since
the last separator, in reverse. None when a string is not closed. -/
def scanLine : Bool → List Char → List Char → Option (List Token × List Char)
  | true, _, [] => none
  | true, acc, c :: cs =>
    if c = '"' then onTokens (.text acc.reverse :: ·) (scanLine false [] cs) else scanLine true (c :: acc) cs
  | false, acc, [] => some (closeRun acc [], [])
  | false, acc, '\'' :: c :: '\'' :: cs => onTokens (fun ts => closeRun acc (.quoted c :: ts)) (scanLine false [] cs)
  | false, acc, c :: cs =>
    if c = ';' then some (closeRun acc [], cs)
    else if c = ' ' ∨ c = '\t' ∨ c = ',' then onTokens (closeRun acc) (scanLine false [] cs)
    else if c = '"' then onTokens (closeRun acc) (scanLine true [] cs)
    else scanLine false (c :: acc) cs

/-- The value of a hexadecimal digit. -/
def hexDigit (c : Char) : Option Nat :=
  if '0' ≤ c ∧ c ≤ '9' then some (c.toNat - 48)
  else if 'A' ≤ c ∧ c ≤ 'F' then some (c.toNat - 55)
  else if 'a' ≤ c ∧ c ≤ 'f' then some (c.toNat - 87)
  else none

/-- The value of a decimal number, none for no digits or for a character that is no digit. -/
def decimal (cs : List Char) : Option Nat :=
  if cs.isEmpty then none
  else cs.foldl (fun n c => n.bind fun v => if '0' ≤ c ∧ c ≤ '9' then some (10 * v + (c.toNat - 48)) else none) (some 0)

/-- The byte of a printable ASCII character (R90), 0x20 to 0x7E (PRESUMED, log entry 8). -/
def charByte (c : Char) : Option Byte :=
  if 0x20 ≤ c.toNat ∧ c.toNat ≤ 0x7E then some (BitVec.ofNat 8 c.toNat) else none

/-- The byte of a character of a double-quoted string. R91 says `a string of ASCII characters`, not printable ones as R90 does
for single quotes: every value 0x00 to 0x7F is taken, and a character that is not ASCII is refused (DEDUCED, log entry 8). -/
def textByte (c : Char) : Option Byte := if c.toNat ≤ 0x7F then some (BitVec.ofNat 8 c.toNat) else none

/-- Two hexadecimal digits as a byte. -/
def hexByte (h l : Char) : Option Byte :=
  match hexDigit h, hexDigit l with
  | some a, some b => some (BitVec.ofNat 8 (16 * a + b))
  | _, _ => none

/-- An operand (R90): `0x` and two hexadecimal digits, a decimal number 0 to 255 (leading zeros do no harm, log entry 8), or one
printable character in quotes. -/
def operandByte : Token → Option Byte
  | .quoted c => charByte c
  | .plain ['0', 'x', h, l] => hexByte h l
  | .plain cs =>
    match decimal cs with
    | some n => if n ≤ 255 then some (BitVec.ofNat 8 n) else none
    | none => none
  | .text _ => none

/-- A byte of a byte list (R91): an operand, or a bare two-digit group, which R8 reads as hexadecimal. -/
def listByte : Token → Option Byte
  | .plain [h, l] => hexByte h l
  | t => operandByte t

/-- The bytes of a pseudo-instruction's operand: one string, or a byte list (R91). DESIGN CHOICE (log entry 8): no operand at all
is the byte list of no byte, so that `DLOAD` alone reads as `DLOAD ""`. -/
def operandBytes : List Token → Option (List Byte)
  | [.text cs] => cs.mapM textByte
  | ts => ts.mapM listByte

/-- The tag and the bytes of `CHUNK`: a string, or the first 4 bytes of a byte list, then the payload (R91). DESIGN CHOICE (log
entry 8): nothing after the tag is a payload of no byte. -/
def chunkOperands : List Token → Option (List Byte × List Byte)
  | .text tag :: ts =>
    match tag.mapM textByte, operandBytes ts with
    | some t, some d => some (t, d)
    | _, _ => none
  | ts => (ts.mapM listByte).map fun bs => (bs.take 4, bs.drop 4)

/-- The command of a format Z mnemonic (R72). -/
def mnemonicZ (m : String) : Option Instr :=
  if m = "NOP" then some .nop
  else if m = "ECLR" then some .eclr
  else if m = "SRST" then some .srst
  else if m = "CINIT" then some .cinit
  else if m = "CCALC" then some .ccalc
  else if m = "DCLR" then some .dclr
  else if m = "SIG" then some .sig
  else if m = "EMIT" then some .emit
  else if m = "RXSIG" then some .rxsig
  else if m = "RXCHUNK" then some .rxchunk
  else if m = "RXEOF" then some .rxeof
  else none

/-- The command of a format B mnemonic (R72). -/
def mnemonicB (m : String) (b : Byte) : Option Instr :=
  if m = "CUPD" then some (.cupd b)
  else if m = "LDT0" then some (.ldt0 b)
  else if m = "LDT1" then some (.ldt1 b)
  else if m = "LDT2" then some (.ldt2 b)
  else if m = "LDT3" then some (.ldt3 b)
  else if m = "DPUSH" then some (.dpush b)
  else if m = "RXB" then some (.rxb b)
  else none

/-- A pseudo-instruction line (R91), `ts` its operands, which may be none (log entry 8). -/
def pseudo (m : String) (ts : List Token) : Option Source :=
  if m = "LDT" then (operandBytes ts).map .ldt
  else if m = "DLOAD" then (operandBytes ts).map .dload
  else if m = "CHUNK" then (chunkOperands ts).map fun o => .chunk o.1 o.2
  else if m = "CRCOF" then (operandBytes ts).map .crcof
  else if m = "RXBYTES" then (operandBytes ts).map .rxbytes
  else none

/-- The command or pseudo-instruction that the tokens of one piece of a line are (R90, R91); none when they are neither. -/
def parseTokens : List Token → Option Source
  | [.plain m] =>
    match mnemonicZ (String.ofList m) with
    | some i => some (.command i)
    | none => pseudo (String.ofList m) []
  | [.plain m, t] =>
    match (operandByte t).bind (mnemonicB (String.ofList m)) with
    | some i => some (.command i)
    | none => pseudo (String.ofList m) [t]
  | .plain m :: ts => pseudo (String.ofList m) ts
  | _ => none

/-- What stands after a `;` that follows a command: further commands, `;`-separated (92 D23), as long as each piece reads whole
as one; the first piece that does not is the comment R90 speaks of, and it runs to the end of the line. DESIGN CHOICE (log
entry 8): an `LDT` or `CHUNK` whose operands can be read but whose tag is not 4 bytes reads as one here too, so that it is no
comment and `assemble` rejects the program, as R91 has it of such a tag. `fuel` is at least the length of the text. -/
def parseRest : Nat → List Char → List Source
  | 0, _ => []
  | fuel + 1, cs =>
    match scanLine false [] cs with
    | none => []
    | some (ts, rest) =>
      match parseTokens ts with
      | some l => l :: parseRest fuel rest
      | none => []

/-- The source a text line holds: nothing for a blank line or one that is only a comment (R90), otherwise its command and
those that follow it (92 D23); none when what stands before the first `;` is rejected. -/
def parseLine (cs : List Char) : Option (List Source) :=
  match scanLine false [] cs with
  | some ([], _) => some []
  | some (ts, rest) => (parseTokens ts).map (· :: parseRest rest.length rest)
  | none => none

/-- The words of a program given as the list of its text lines (R90); none when a line is rejected. -/
def assembleText (lines : List (List Char)) : Option (List CmdWord) :=
  match lines.mapM parseLine with
  | some ls => assemble ls.flatten
  | none => none

end Sys2Proof.Machine
end

