-- ==== Sys2Proof/Machine/Container.lean ====
section
/-! DEFINITION. The host side (46_host_container.md): the reference semantics of the container and of the other software
around CRCF, over mathematical values, and the procedures by which the host drives CRCF. No step of the machine uses it. -/

namespace Sys2Proof.Machine

/-! ### Chunks and files as values -/

/-- A chunk as a value: a type and its data (10_state.md R43). Two chunks are equal when both are (R231). -/
structure Chunk where
  type : TypeReg
  data : List Byte
  deriving DecidableEq, Repr

/-- The current chunk of a state, R43. -/
def State.chunk (s : State) : Chunk := ⟨s.t, s.payload⟩

/-- `crc()` of a chunk: type, then data (R43, R123). -/
def Chunk.crc (c : Chunk) : Word := crc32 (c.type.bytes ++ c.data)

/-- `as_bytes()` of a chunk, R144. -/
def Chunk.bytes (c : Chunk) : List Byte := frame c.type.bytes c.data

/-- A Png: an ordered sequence of chunks (R221); `from_chunks` is the sequence itself (R222). -/
abbrev Png := List Chunk

/-- `append_chunk`, R223. -/
def Png.append (p : Png) (c : Chunk) : Png := p ++ [c]

/-- `as_bytes()` of a Png, R224 and 30_encoding.md R82. -/
def Png.bytes (p : Png) : List Byte := signature ++ p.flatMap Chunk.bytes

/-- The error kinds a host can report, in the numbering of R251: CRCF's, and its own three. -/
inductive HostErr where
  | crcf (e : Err)
  | invalidFormat
  | utf8Error
  | chunkNotFound
  deriving DecidableEq, Repr

/-- The code of an error kind, R251. -/
def HostErr.code : HostErr → BitVec 4
  | .crcf e => e.code
  | .invalidFormat => 1#4
  | .utf8Error => 2#4
  | .chunkNotFound => 6#4

/-- What a host operation that can fail yields. -/
inductive HostResult (α : Type) where
  | ok (value : α)
  | fail (e : HostErr)
  deriving DecidableEq, Repr

/-- `parse_chunk(s)`, 43_deframer.md R164: the chunk and the bytes left over. -/
def parseChunk : List Byte → HostResult (Chunk × List Byte)
  | l0 :: l1 :: l2 :: l3 :: t0 :: t1 :: t2 :: t3 :: body =>
    let n := (fromBe32 l0 l1 l2 l3).toNat
    match body.drop n with
    | r0 :: r1 :: r2 :: r3 :: left =>
      let c : Chunk := ⟨⟨t0, t1, t2, t3⟩, body.take n⟩
      if c.crc = fromBe32 r0 r1 r2 r3 then .ok (c, left) else .fail (.crcf .crcMismatch)
    | _ => .fail (.crcf .unexpectedEof)
  | _ => .fail (.crcf .unexpectedEof)

/-- The loop of `parse_png` (R225 steps 2 to 4), given at least as much fuel as there are bytes. -/
def parseChunks : Nat → List Byte → HostResult Png
  | _, [] => .ok []
  | 0, _ :: _ => .fail (.crcf .unexpectedEof)
  | fuel + 1, b :: bs =>
    match parseChunk (b :: bs) with
    | .fail e => .fail e
    | .ok (c, rest) =>
      match parseChunks fuel rest with
      | .fail e => .fail e
      | .ok p => .ok (c :: p)

/-- `parse_png(s)`, R225. -/
def parsePng (s : List Byte) : HostResult Png :=
  if s.take 8 = signature then parseChunks s.length (s.drop 8) else .fail (.crcf .invalidSignature)

/-! ### Text of types and data -/

/-- `ChunkType::from_string`, R228: `InvalidFormat` unless the string is exactly 4 bytes long. -/
def typeFromString : List Byte → HostResult TypeReg
  | [b0, b1, b2, b3] => .ok ⟨b0, b1, b2, b3⟩
  | _ => .fail .invalidFormat

/-- The textual form of a type: its bytes, where all are below 0x80; what a larger byte yields is not said (R228, 93 U3). -/
def TypeReg.text? (t : TypeReg) : Option (List Byte) :=
  if t.bytes.all (· < 0x80#8) then some t.bytes else none

/-- What a lookup by textual type answers. -/
inductive Found where
  /-- the first matching chunk, and the sequence without it -/
  | chunk (c : Chunk) (others : Png)
  | absent
  /-- the spec defines no answer: a tag with a byte at or above 0x80 had to be compared (R228, 93 U3; log entry 9) -/
  | undefinedText
  deriving DecidableEq, Repr

/-- The first chunk, in order, whose textual type is `tag` (R226, R227). -/
def Png.lookup (tag : List Byte) : Png → Found
  | [] => .absent
  | c :: p =>
    if tag.all (· < 0x80#8) then
      match c.type.text? with
      | none => .undefinedText
      | some x =>
        if x = tag then .chunk c p
        else
          match Png.lookup tag p with
          | .chunk f others => .chunk f (c :: others)
          | .absent => .absent
          | .undefinedText => .undefinedText
    else .undefinedText

/-- `remove_chunk`, R226: the first match and the remaining chunks, or `ChunkNotFound`; none where the spec defines no
answer. -/
def Png.remove (p : Png) (tag : List Byte) : Option (HostResult (Chunk × Png)) :=
  match Png.lookup tag p with
  | .chunk c others => some (.ok (c, others))
  | .absent => some (.fail .chunkNotFound)
  | .undefinedText => none

/-- `chunk_by_type`, R227: the first match or absence; none where the spec defines no answer. -/
def Png.find (p : Png) (tag : List Byte) : Option (Option Chunk) :=
  match Png.lookup tag p with
  | .chunk c _ => some (some c)
  | .absent => some none
  | .undefinedText => none

/-- A UTF-8 continuation byte's six bits, none for another byte. PRESUMED (log entry 9). -/
def utf8Tail (b : Byte) : Option Nat := if b &&& 0xC0#8 = 0x80#8 then some (b &&& 0x3F#8).toNat else none

/-- The code points of a UTF-8 text, none where it is not valid: no overlong form, no surrogate, nothing above 0x10FFFF.
PRESUMED, from the definition of UTF-8 (91 N12; log entry 9). -/
def utf8Decode : List Byte → Option (List Nat)
  | [] => some []
  | b :: bs =>
    if b < 0x80#8 then (utf8Decode bs).map (b.toNat :: ·)
    else
      match bs with
      | [] => none
      | b1 :: bs1 =>
        if b &&& 0xE0#8 = 0xC0#8 then
          match utf8Tail b1 with
          | some x1 =>
            let v := (b &&& 0x1F#8).toNat * 64 + x1
            if v < 0x80 then none else (utf8Decode bs1).map (v :: ·)
          | none => none
        else
          match bs1 with
          | [] => none
          | b2 :: bs2 =>
            if b &&& 0xF0#8 = 0xE0#8 then
              match utf8Tail b1, utf8Tail b2 with
              | some x1, some x2 =>
                let v := ((b &&& 0x0F#8).toNat * 64 + x1) * 64 + x2
                if v < 0x800 ∨ (0xD800 ≤ v ∧ v ≤ 0xDFFF) then none else (utf8Decode bs2).map (v :: ·)
              | _, _ => none
            else
              match bs2 with
              | [] => none
              | b3 :: bs3 =>
                if b &&& 0xF8#8 = 0xF0#8 then
                  match utf8Tail b1, utf8Tail b2, utf8Tail b3 with
                  | some x1, some x2, some x3 =>
                    let v := (((b &&& 0x07#8).toNat * 64 + x1) * 64 + x2) * 64 + x3
                    if v < 0x10000 ∨ 0x10FFFF < v then none else (utf8Decode bs3).map (v :: ·)
                  | _, _, _ => none
                else none

/-- `data_as_string`, R229: the decoded text as code points, or `Utf8Error`. -/
def Chunk.dataAsString (c : Chunk) : HostResult (List Nat) :=
  match utf8Decode c.data with
  | some cs => .ok cs
  | none => .fail .utf8Error

/-- The byte-for-byte ordering of types, R231. -/
def TypeReg.lt (t u : TypeReg) : Bool :=
  fromBe32 t.b0 t.b1 t.b2 t.b3 < fromBe32 u.b0 u.b1 u.b2 u.b3

/-! ### How the host drives CRCF -/

/-- The program that writes a file, R224. -/
def Png.program (p : Png) : List Instr :=
  .sig :: p.flatMap fun c =>
    [.ldt0 c.type.b0, .ldt1 c.type.b1, .ldt2 c.type.b2, .ldt3 c.type.b3] ++ expandDload c.data ++ [.emit]

/-- The sequencer runs on while its phase is autonomous, for at most `n` steps: what lifts the hold of a command
(00_scope.md R15). -/
def settle (n : Nat) (s : State) : Result :=
  if s.phase.autonomous then
    match n with
    | 0 => .next s
    | n + 1 =>
      match seqStep s with
      | .next u => settle n u
      | .fault r => .fault r
      | .refused r => .refused r
  else .next s

/-- The host issues a command and waits until it is accepted (00_scope.md R15, 46_host_container.md R233): an autonomous phase
in progress first runs to its end, in at most `12 + LEN` steps (45_control.md R209). The command comes before the words of
`State.words`, and no sample of the reset input is taken (log entry 13). -/
def hostSend (i : Instr) (s : State) : Result :=
  match settle (12 + s.len.toNat) s with
  | .next u => exec i u
  | .fault r => .fault r
  | .refused r => .refused r

/-- Input bytes delivered one after the other, each by an `RXB` command. -/
def deliver : List Byte → State → Result
  | [], s => .next s
  | b :: bs, s =>
    match hostSend (.rxb b) s with
    | .next u => deliver bs u
    | .fault r => .fault r
    | .refused r => .refused r

/-- The host's feeding rule of R170: bytes by `RXB` until `PHASE` reads `IDLE`, and `RXEOF` if they run out first. The
answer holds the bytes not consumed. -/
def feed : List Byte → State → Host.Outcome (State × List Byte) Fault Refusal
  | [], s =>
    if s.phase = .idle then .next (s, [])
    else
      match hostSend .rxeof s with
      | .next u => .next (u, [])
      | .fault r => .fault r
      | .refused r => .refused r
  | b :: bs, s =>
    if s.phase = .idle then .next (s, b :: bs)
    else
      match hostSend (.rxb b) s with
      | .next u => feed bs u
      | .fault r => .fault r
      | .refused r => .refused r

/-- The host runs `parse_chunk` on CRCF, R170: `RXCHUNK`, then the feeding rule. -/
def hostParseChunk (bs : List Byte) (s : State) : Host.Outcome (State × List Byte) Fault Refusal :=
  match hostSend .rxchunk s with
  | .next u => feed bs u
  | .fault r => .fault r
  | .refused r => .refused r

/-- The host checks a signature on CRCF, R225: `RXSIG`, then the feeding rule. -/
def hostCheckSignature (bs : List Byte) (s : State) : Host.Outcome (State × List Byte) Fault Refusal :=
  match hostSend .rxsig s with
  | .next u => feed bs u
  | .fault r => .fault r
  | .refused r => .refused r

/-- The loop of R225 on CRCF: while bytes remain, a chunk is parsed and copied out; an error stops it. -/
def hostParseChunks : Nat → List Byte → State → Host.Outcome (State × Png) Fault Refusal
  | _, [], s => .next (s, [])
  | 0, _ :: _, s => .next (s, [])
  | fuel + 1, b :: bs, s =>
    match hostParseChunk (b :: bs) s with
    | .next (u, rest) =>
      if u.err ≠ .none then .next (u, [])
      else
        match hostParseChunks fuel rest u with
        | .next (v, p) => .next (v, u.chunk :: p)
        | .fault r => .fault r
        | .refused r => .refused r
    | .fault r => .fault r
    | .refused r => .refused r

/-- The host runs `parse_png` on CRCF, R225. On an error everything is discarded. -/
def hostParsePng (bs : List Byte) (s : State) : Host.Outcome (State × Png) Fault Refusal :=
  match hostCheckSignature bs s with
  | .next (u, rest) =>
    if u.err ≠ .none then .next (u, [])
    else
      match hostParseChunks rest.length rest u with
      | .next (v, p) => if v.err ≠ .none then .next (v, []) else .next (v, p)
      | .fault r => .fault r
      | .refused r => .refused r
  | .fault r => .fault r
  | .refused r => .refused r

end Sys2Proof.Machine
end

