-- ==== Sys2Proof/Machine/ReadPort.lean ====
section
/-! DEFINITION. The read port: the status word (10_state.md R33) and the word map (R34). A read is an observation: a function
of the state that changes nothing (R38). The buffer byte port (R35) is `State.readBuffer`. -/

namespace Sys2Proof.Machine

/-- A flag as a bit of the status word. -/
def flagBit (b : Bool) (n : Nat) : Word := (if b then 1#32 else 0#32) <<< n

/-- `STATUS`, R33: `ERR` in 3:0, `PHASE` in 7:4, the flags in 13:8, zeros above. -/
def State.status (s : State) : Word :=
  s.err.code.setWidth 32 ||| (s.phase.code.setWidth 32 <<< 4) |||
  flagBit s.t.crit 8 ||| flagBit s.t.pub 9 ||| flagBit s.t.rsvok 10 |||
  flagBit s.t.safe 11 ||| flagBit s.t.priv 12 ||| flagBit s.t.valid 13

/-- The word read at index `i` of the read port, R34. -/
def State.readWord (s : State) (i : BitVec 4) : Word :=
  match i.toNat with
  | 0 => s.status
  | 1 => fromBe32 s.t.b0 s.t.b1 s.t.b2 s.t.b3
  | 2 => s.len
  | 3 => crcFinal s.c
  | 4 => s.c
  | 5 => s.rxlen
  | 6 => s.rxcrc
  | 7 => s.idx
  | 8 => s.dataMax
  | _ => 0#32

end Sys2Proof.Machine
end

