-- ==== Sys2Proof/Safety.lean ====
section
/-! DEFINITION. What counts as a good state and a good run, in the spec's terms: the invariants of reachable states
(10_state.md R41), the end of a run (00_scope.md R16), and who may write which register (10_state.md R26). -/

namespace Sys2Proof.Machine

/-! ### Ready, accepting, reset released -/

/-- Ready for a command: in `IDLE` with no error latched. -/
abbrev State.Ready (s : State) : Prop := s.phase = .idle ∧ s.err = .none

/-- A parse or a signature check is in progress, with no error latched. -/
abbrev State.Receiving (s : State) : Prop := s.phase.waiting = true ∧ s.err = .none

/-- The coming step takes no sample in which reset is asserted. -/
def State.resetReleased (s : State) : Bool :=
  match s.rst with
  | .asserted _ :: _ => false
  | _ => true

/-- The state after `raise E` (60_exceptions.md R255), written out. -/
def State.raised (s : State) (e : Err) : State := { s with err := e, phase := .idle, idx := 0#32 }

/-! ### The end of a run, R16 -/

/-- The run is over: every word accepted and no autonomous phase in progress. -/
def State.over (s : State) : Bool := s.words.isEmpty && !s.phase.autonomous

/-- The run is final: over, and in `IDLE`. -/
def State.final (s : State) : Bool := s.over && s.phase == .idle

/-- The run is stuck waiting for an input byte or end of input that was never sent. -/
def State.stuckWaiting (s : State) : Bool := s.over && s.phase.waiting

/-- A final run with no error latched. -/
def State.clean (s : State) : Bool := s.final && s.err == .none

/-- A final run with an error latched. -/
def State.faulted (s : State) : Bool := s.final && s.err != .none

/-! ### Invariants, R41 -/

/-- The range of `IDX` in the phase, R30; in `RX_DATA` also `LEN < RXLEN`, the condition for being in the phase. -/
def State.PositionOk (s : State) : Prop :=
  match s.phase with
  | .idle => s.idx = 0#32
  | .txSig | .rxSig => s.idx < 8#32
  | .txLen | .txType | .txCrc | .ccType | .rxLen | .rxType | .rxCrc => s.idx < 4#32
  | .txData | .ccData => s.idx < s.len
  | .rxData => s.idx = s.len ∧ s.len < s.rxlen

/-- How far a reception has come: no payload byte before the type is complete, all of it in `RX_CRC` (R24, R41). -/
def State.ReceptionOk (s : State) : Prop :=
  match s.phase with
  | .rxLen => s.len = 0#32
  | .rxType => s.len = 0#32 ∧ s.rxlen ≤ s.dataMax
  | .rxData => s.rxlen ≤ s.dataMax
  | .rxCrc => s.len = s.rxlen ∧ s.rxlen ≤ s.dataMax
  | .idle | .txSig | .txLen | .txType | .txData | .txCrc | .ccType | .ccData | .rxSig => True

/-- The invariants of R41, with what makes them inductive (`legal`, `reception`). -/
structure State.Inv (s : State) : Prop where
  /-- the parameter is in its legal range (R6) -/
  legal : s.dataMax ≠ 0#32
  /-- invariant 1 -/
  capacity : s.len ≤ s.dataMax
  /-- invariants 2 and 4 -/
  position : s.PositionOk
  /-- invariant 3 -/
  errorIdle : s.err ≠ .none → s.phase = .idle ∧ s.idx = 0#32
  /-- invariant 5 -/
  reception : s.ReceptionOk
  /-- invariant 6: the buffer holds exactly `D[0..LEN)`, in its canonical form -/
  buffer : s.d.map Prod.fst = List.range s.len.toNat

/-- What `C` holds while an operation is in progress: the raw CRC of the type and payload bytes moved so far (R22, R126,
R150, R167). -/
def State.CrcTracks (s : State) : Prop :=
  match s.phase with
  | .txLen | .rxLen => s.c = crcRaw []
  | .txType | .ccType | .rxType => s.c = crcRaw (s.t.bytes.take s.idx.toNat)
  | .txData | .ccData => s.c = crcRaw (s.t.bytes ++ s.payload.take s.idx.toNat)
  | .txCrc | .rxData | .rxCrc => s.c = crcRaw (s.t.bytes ++ s.payload)
  | .idle | .txSig | .rxSig => True

/-- The states a run can reach (R41): from the reset state of a block of a legal capacity, by steps of the machine, the host
being free at every moment to change what it is about to send and when it asserts reset (46_host_container.md R233). -/
inductive Reachable : State → Prop where
  | reset (dataMax : Word) : dataMax ≠ 0#32 → Reachable (State.resetWith dataMax)
  | step (s s' : State) : Reachable s → Sys2Proof.Machine.step s = .next s' → Reachable s'
  | host (s : State) (words : List CmdWord) (rst : List ResetSample) :
      Reachable s → Reachable { s with words := words, rst := rst }

/-! ### Who may write what, R26 -/

/-- The commands that may write `C` (R26), by the phase they are accepted in. -/
def writesC : Instr → Phase → Bool
  | .srst, _ | .cinit, _ | .cupd _, _ | .ccalc, _ | .emit, _ | .rxchunk, _ => true
  | .rxb _, p => p == .rxType || p == .rxData
  | _, _ => false

/-- The commands that may write `T` (R26). -/
def writesT : Instr → Phase → Bool
  | .srst, _ | .ldt0 _, _ | .ldt1 _, _ | .ldt2 _, _ | .ldt3 _, _ => true
  | .rxb _, p => p == .rxType
  | _, _ => false

/-- The commands that may write `LEN` and `D` (R26). -/
def writesBuffer : Instr → Phase → Bool
  | .srst, _ | .dclr, _ | .dpush _, _ | .rxchunk, _ => true
  | .rxb _, p => p == .rxData
  | _, _ => false

/-- The commands that may write `RXLEN` (R26). -/
def writesRxlen : Instr → Phase → Bool
  | .srst, _ | .rxchunk, _ => true
  | .rxb _, p => p == .rxLen
  | _, _ => false

/-- The commands that may write `RXCRC` (R26). -/
def writesRxcrc : Instr → Phase → Bool
  | .srst, _ | .rxchunk, _ => true
  | .rxb _, p => p == .rxCrc
  | _, _ => false

/-- The commands that may write `PHASE` and `IDX` by their own rule (R26), raising apart. -/
def writesPosition : Instr → Bool
  | .srst | .ccalc | .sig | .emit | .rxsig | .rxchunk | .rxb _ | .rxeof => true
  | .nop | .eclr | .cinit | .cupd _ | .ldt0 _ | .ldt1 _ | .ldt2 _ | .ldt3 _ | .dclr | .dpush _ => false

/-- The error kinds a command may raise, by the phase it is accepted in (30_encoding.md R78, 60_exceptions.md R257 to R262). -/
def raises : Instr → Phase → List Err
  | .nop, _ | .eclr, _ | .srst, _ => []
  | .rxb _, .idle => [.badSequence]
  | .rxb _, .rxSig => [.invalidSignature]
  | .rxb _, .rxLen => [.overflow]
  | .rxb _, .rxCrc => [.crcMismatch]
  | .rxb _, _ => []
  | .rxeof, .rxSig => [.invalidSignature]
  | .rxeof, p => if p.waiting then [.unexpectedEof] else []
  | .dpush _, .idle => [.overflow]
  | _, p => if p.waiting then [.badSequence] else []

/-- The buffer address a command stores a byte to: `LEN`, for `DPUSH` and for `RXB` in phase `RX_DATA` (20_memory.md R53). -/
def storedAddress : Instr → State → Option Nat
  | .dpush _, s => some s.len.toNat
  | .rxb _, s => if s.phase = .rxData then some s.len.toNat else none
  | _, _ => none

/-- The commands that empty the buffer (20_memory.md R54). -/
def emptiesBuffer : Instr → Bool
  | .srst | .dclr | .rxchunk => true
  | _ => false

end Sys2Proof.Machine
end

