-- ==== Sys2Proof/Certificates/Slice0/Obligations.lean ====
section
/-! DEFINITION. The statements for the provers. Each docstring names the rules of spec/ it formalises; next states are written
out field by field, so that a statement says the frame too. -/

open Sys2Proof Sys2Proof.Machine

/-! ### Encoding -/

/-- Every command at every operand survives encoding and decoding (30_encoding.md R72, R77). -/
def Obligations.DecodeOfEncodeIsTheCommand : Prop :=
  ∀ i : Instr, i.wellFormed = true → decode (encode i) = .command i

/-- A word that decodes to a command is that command's word: no bit of a command word is ignored (R72, R77). -/
def Obligations.EncodeOfDecodeIsTheWord : Prop :=
  ∀ (w : CmdWord) (i : Instr), decode w = .command i → encode i = w ∧ i.wellFormed = true

/-- R72: a word is a command exactly when it matches the command's row of the opcode map, which has 18 rows. -/
def Obligations.WordsAreTheCommandsOfTheirRows : Prop :=
  opcodeTable.length = 18 ∧
  ∀ (w : CmdWord) (row : Row), row ∈ opcodeTable →
    (w &&& row.mask = row.matchWord ↔ ∃ i : Instr, decode w = .command i ∧ i.mnemonic = row.mnemonic)

/-- R73: the reserved words are exactly those that match no row; and no word matches two rows. -/
def Obligations.ReservedWordsMatchNoRow : Prop :=
  (∀ w : CmdWord, (∃ why, decode w = .reserved why) ↔ ∀ row ∈ opcodeTable, w &&& row.mask ≠ row.matchWord) ∧
  opcodeTable.Pairwise (fun a b => ∀ w : CmdWord, ¬ (w &&& a.mask = a.matchWord ∧ w &&& b.mask = b.matchWord))

/-- Words written out from the encoding tables (R72; 95_test_vectors.md section 2.6) decode to the commands they stand for,
one of each family, and three words that are reserved do not. -/
def Obligations.WrittenOutWordsDecode : Prop :=
  decode 0x0000#16 = .command .nop ∧ decode 0x0200#16 = .command .srst ∧
  decode 0x1131#16 = .command (.cupd 0x31#8) ∧ decode 0x23A5#16 = .command (.ldt3 0xA5#8) ∧
  decode 0x29FF#16 = .command (.dpush 0xFF#8) ∧ decode 0x3100#16 = .command .emit ∧
  decode 0x3000#16 = .command .sig ∧ decode 0x4289#16 = .command (.rxb 0x89#8) ∧
  decode 0x4300#16 = .command .rxeof ∧
  decode 0x3101#16 = .reserved (.operandNotZero 0x31#8 0x01#8) ∧
  decode 0x5000#16 = .reserved (.unknownOpcode 0x50#8) ∧
  decode 0xFFFF#16 = .reserved (.unknownOpcode 0xFF#8)

/-- R91: an assembled program is the words of its lines' expansions, each of which decodes back to the command it came
from. -/
def Obligations.AssembledWordsDecodeBack : Prop :=
  ∀ (ls : List Source) (ws : List CmdWord), assemble ls = some ws →
    (∀ l ∈ ls, l.wellFormed = true) ∧
    ∃ parts : List (List Instr), ls.mapM Source.expand = some parts ∧ ws.map decode = parts.flatten.map .command

/-! ### The step -/

/-- A step runs the decoded command: with reset released, a phase that accepts commands and a word on the port that decodes
to `i`, the step is `exec i` with the word taken off the port (00_scope.md R13, R15; 30_encoding.md R78). -/
def Obligations.StepRunsTheDecodedCommand : Prop :=
  ∀ (s : State) (w : CmdWord) (ws : List CmdWord) (i : Instr),
    s.resetReleased = true → s.phase.autonomous = false → s.words = w :: ws → decode w = .command i →
    i.wellFormed = true →
    step s = exec i { s with words := ws, rst := s.rst.tail }

/-- R74, R260: a reserved word is accepted like any other; with no error latched it raises `IllegalCommand`, in `IDLE` and in
every waiting phase; with an error latched it is dropped; in an autonomous phase it stays on the port. -/
def Obligations.ReservedWordRaisesIllegalCommand : Prop :=
  ∀ (s : State) (w : CmdWord) (ws : List CmdWord) (why : ReservedWord),
    s.resetReleased = true → s.words = w :: ws → decode w = .reserved why →
    (s.phase.autonomous = false → s.err = .none →
      step s = .next { s with
        err := .illegalCommand, phase := .idle, idx := 0#32, words := ws, rst := s.rst.tail }) ∧
    (s.phase.autonomous = false → s.err ≠ .none → step s = .next { s with words := ws, rst := s.rst.tail }) ∧
    (s.phase.autonomous = true → ∀ u : State, step s = .next u → u.words = w :: ws)

/-- In an autonomous phase the step is the sequencer's, and every word stays on the port (00_scope.md R15, 10_state.md R29). -/
def Obligations.AutonomousPhaseHoldsTheCommand : Prop :=
  ∀ s : State, s.resetReleased = true → s.phase.autonomous = true →
    step s = seqStep { s with rst := s.rst.tail } ∧
    ∀ u : State, step s = .next u → u.words = s.words ∧ u.rst = s.rst.tail

/-- With no word on the port and no autonomous phase CRCF has no enabled step (00_scope.md R16, 60_exceptions.md R275); the
model's choice is that its step then leaves the state (log entry 3). -/
def Obligations.MachineWaitsForTheHost : Prop :=
  ∀ s : State, s.resetReleased = true → s.phase.autonomous = false → s.words = [] →
    step s = .next { s with rst := s.rst.tail }

/-! ### Reset -/

/-- R290: the reset step, from every state. `OUT` is not changed; the word the host was holding is offered again or
withdrawn. -/
def Obligations.ResetStepIsTotal : Prop :=
  ∀ (s : State) (withdraw : Bool) (rs : List ResetSample), s.rst = .asserted withdraw :: rs →
    step s = .next {
      t := ⟨0#8, 0#8, 0#8, 0#8⟩, c := 0xFFFFFFFF#32, len := 0#32, d := [], rxlen := 0#32, rxcrc := 0#32
      phase := .idle, idx := 0#32, err := .none
      dataMax := s.dataMax, out := s.out
      words := if withdraw then s.words.tail else s.words, rst := rs }

/-- R42, R33, R34: the reset values, as registers, as flags and as the words of the read port. Word 8 reads the capacity the
block was given. `State.reset` is this state at the capacity the model chose (log entry 1). -/
def Obligations.ResetValues : Prop :=
  State.reset = State.resetWith State.reset.dataMax ∧
  ∀ n : Word,
    (State.resetWith n).t.bytes = [0#8, 0#8, 0#8, 0#8] ∧ (State.resetWith n).c = 0xFFFFFFFF#32 ∧
    (State.resetWith n).len = 0#32 ∧ (State.resetWith n).rxlen = 0#32 ∧ (State.resetWith n).rxcrc = 0#32 ∧
    (State.resetWith n).phase = .idle ∧ (State.resetWith n).idx = 0#32 ∧ (State.resetWith n).err = .none ∧
    (∀ i : Word, (State.resetWith n).readBuffer i = none) ∧
    (State.resetWith n).readWord 0 = 0x00000700#32 ∧ (State.resetWith n).readWord 1 = 0#32 ∧
    (State.resetWith n).readWord 2 = 0#32 ∧ (State.resetWith n).readWord 3 = 0#32 ∧
    (State.resetWith n).readWord 4 = 0xFFFFFFFF#32 ∧ (State.resetWith n).readWord 5 = 0#32 ∧
    (State.resetWith n).readWord 6 = 0#32 ∧ (State.resetWith n).readWord 7 = 0#32 ∧
    (State.resetWith n).readWord 8 = n

/-- R202: `SRST`, wherever it is accepted (with an error latched too), gives every register its reset value, and leaves `OUT`. -/
def Obligations.SrstResetsEveryRegister : Prop :=
  encode .srst = 0x0200#16 ∧
  ∀ s : State, s.phase.autonomous = false →
    exec .srst s = .next {
      t := ⟨0#8, 0#8, 0#8, 0#8⟩, c := 0xFFFFFFFF#32, len := 0#32, d := [], rxlen := 0#32, rxcrc := 0#32
      phase := .idle, idx := 0#32, err := .none
      dataMax := s.dataMax, out := s.out, words := s.words, rst := s.rst }

/-! ### Dispatch -/

/-- R256: while an error is latched every accepted word is dropped, changing nothing, but `ECLR` and `SRST`, which are
performed. -/
def Obligations.FaultedMachineDropsEveryWord : Prop :=
  ∀ (s : State) (w : CmdWord) (ws : List CmdWord),
    s.resetReleased = true → s.phase.autonomous = false → s.err ≠ .none → s.words = w :: ws →
    (decode w ≠ .command .eclr → decode w ≠ .command .srst →
      step s = .next { s with words := ws, rst := s.rst.tail }) ∧
    (decode w = .command .eclr → step s = .next { s with err := .none, words := ws, rst := s.rst.tail }) ∧
    (decode w = .command .srst →
      step s = .next { State.resetWith s.dataMax with out := s.out, words := ws, rst := s.rst.tail })

/-- R261: `BadSequence` is raised by `RXB` in `IDLE`, and in a waiting phase by every command but `NOP`, `ECLR`, `SRST`, `RXB`
and `RXEOF`, which is not performed. -/
def Obligations.OutOfSequenceCommandsRaiseBadSequence : Prop :=
  (∀ (s : State) (b : Byte), s.Ready → exec (.rxb b) s = .next (s.raised .badSequence)) ∧
  (∀ (s : State) (i : Instr), s.Receiving →
    i ≠ .nop → i ≠ .eclr → i ≠ .srst → i ≠ .rxeof → (∀ b, i ≠ .rxb b) →
    exec i s = .next (s.raised .badSequence))

/-! ### The commands -/

/-- R200 and R201: `NOP`, wherever it is accepted, changes nothing; `ECLR`, wherever it is accepted, clears the latch and nothing
else. That `exec` of `NOP` answers the unchanged state in an autonomous phase too, where the word is held and no command is
performed, is the model's choice (log entry 7). -/
def Obligations.NopAndEclrEffects : Prop :=
  encode .nop = 0x0000#16 ∧ encode .eclr = 0x0100#16 ∧
  (∀ s : State, exec .nop s = .next s) ∧
  (∀ s : State, s.phase.autonomous = false → exec .eclr s = .next { s with err := .none })

/-- R100 to R103: each `LDTn` writes its byte of `T`, at every value, and nothing else. -/
def Obligations.LoadTypeByteCommands : Prop :=
  ∀ (s : State) (b : Byte), s.Ready →
    exec (.ldt0 b) s = .next { s with t := { s.t with b0 := b } } ∧
    exec (.ldt1 b) s = .next { s with t := { s.t with b1 := b } } ∧
    exec (.ldt2 b) s = .next { s with t := { s.t with b2 := b } } ∧
    exec (.ldt3 b) s = .next { s with t := { s.t with b3 := b } }

/-- R124, R125: `CINIT` seeds `C`; `CUPD` folds one byte into it; nothing else changes. After `CINIT` and one `CUPD` per byte
of `bs` the read word `CRC` is `crc32(bs)`. -/
def Obligations.CrcUnitCommands : Prop :=
  (∀ s : State, s.Ready → exec .cinit s = .next { s with c := 0xFFFFFFFF#32 }) ∧
  (∀ (s : State) (b : Byte), s.Ready → exec (.cupd b) s = .next { s with c := crcUpd s.c b }) ∧
  (∀ (s : State) (bs : List Byte), s.Ready → s.rst = [] →
    ∃ u, Sys2Proof.core.run (bs.length + 1)
        { s with words := (Instr.cinit :: bs.map .cupd).map encode } = .next u ∧
      u = { s with c := crcRaw bs, words := [] } ∧ u.readWord 3 = crc32 bs)

/-- R141, R142, R53, R54, R262 (a): `DCLR` empties the buffer; `DPUSH` appends its byte below the capacity, raises `Overflow`
at the capacity. Above it (no reachable state) it has no address to write to and faults by name: the model's choice, log
entry 5. -/
def Obligations.BufferCommands : Prop :=
  (∀ s : State, s.Ready → exec .dclr s = .next { s with len := 0#32, d := [] }) ∧
  (∀ (s : State) (b : Byte), s.Ready → s.len < s.dataMax →
    ∃ u, exec (.dpush b) s = .next u ∧
      u = { s with d := Memory.write s.d s.len.toNat b, len := s.len + 1#32 } ∧
      u.len.toNat = s.len.toNat + 1 ∧ u.readBuffer s.len = some b ∧
      ∀ i : Word, i < s.len → u.readBuffer i = s.readBuffer i) ∧
  (∀ (s : State) (b : Byte), s.Ready → s.len = s.dataMax → exec (.dpush b) s = .next (s.raised .overflow)) ∧
  (∀ (s : State) (b : Byte), s.Ready → s.dataMax < s.len →
    exec (.dpush b) s = .fault (.bufferAddressAbsent s.len.toNat))

/-- R160, R183: `RXCHUNK` seeds `C`, empties the buffer, clears `RXLEN` and `RXCRC` and waits for the length; `RXSIG` only
starts waiting for the signature. -/
def Obligations.ReceiveCommandsStartWaiting : Prop :=
  (∀ s : State, s.Ready →
    exec .rxchunk s = .next { s with
      c := 0xFFFFFFFF#32, len := 0#32, d := [], rxlen := 0#32, rxcrc := 0#32, phase := .rxLen, idx := 0#32 }) ∧
  (∀ s : State, s.Ready → exec .rxsig s = .next { s with phase := .rxSig, idx := 0#32 })

/-- R184: `RXB` in phase `RX_SIG`, at each of the eight positions. -/
def Obligations.RxbInSignaturePhase : Prop :=
  ∀ (s : State) (b want : Byte), s.phase = .rxSig → s.err = .none → signature[s.idx.toNat]? = some want →
    (b ≠ want → exec (.rxb b) s = .next (s.raised .invalidSignature)) ∧
    (b = want → s.idx.toNat < 7 → exec (.rxb b) s = .next { s with idx := s.idx + 1#32 }) ∧
    (b = want → s.idx.toNat = 7 → exec (.rxb b) s = .next { s with phase := .idle, idx := 0#32 })

/-- R163, R262 (b): `RXB` in phase `RX_LEN` shifts the byte in, most significant first; on the fourth byte a length above
`DATA_MAX` raises `Overflow`, with the byte already shifted in. -/
def Obligations.RxbInLengthPhase : Prop :=
  ∀ (s : State) (b : Byte) (n : Word), s.phase = .rxLen → s.err = .none → n = (s.rxlen <<< 8) ||| b.setWidth 32 →
    (s.idx.toNat < 3 → exec (.rxb b) s = .next { s with rxlen := n, idx := s.idx + 1#32 }) ∧
    (s.idx.toNat = 3 → s.dataMax < n →
      exec (.rxb b) s = .next { s with rxlen := n, err := .overflow, phase := .idle, idx := 0#32 }) ∧
    (s.idx.toNat = 3 → n ≤ s.dataMax →
      exec (.rxb b) s = .next { s with rxlen := n, phase := .rxType, idx := 0#32 })

/-- R165: `RXB` in phase `RX_TYPE` stores the byte in `T[IDX]`, whatever it is, and folds it into `C`. -/
def Obligations.RxbInTypePhase : Prop :=
  ∀ (s : State) (b : Byte), s.phase = .rxType → s.err = .none →
    (s.idx = 0#32 → exec (.rxb b) s =
      .next { s with t := { s.t with b0 := b }, c := crcUpd s.c b, idx := 1#32 }) ∧
    (s.idx = 1#32 → exec (.rxb b) s =
      .next { s with t := { s.t with b1 := b }, c := crcUpd s.c b, idx := 2#32 }) ∧
    (s.idx = 2#32 → exec (.rxb b) s =
      .next { s with t := { s.t with b2 := b }, c := crcUpd s.c b, idx := 3#32 }) ∧
    (s.idx = 3#32 → exec (.rxb b) s =
      .next { s with
        t := { s.t with b3 := b }, c := crcUpd s.c b
        phase := if s.rxlen = 0#32 then .rxCrc else .rxData, idx := 0#32 })

/-- R166: `RXB` in phase `RX_DATA` stores the byte at `D[LEN]` and folds it into `C`; the declared length ends the phase. The
premise is invariant 4 of R41. -/
def Obligations.RxbInDataPhase : Prop :=
  ∀ (s : State) (b : Byte), s.phase = .rxData → s.err = .none →
    s.idx = s.len → s.len < s.rxlen → s.rxlen ≤ s.dataMax →
    (s.len.toNat + 1 = s.rxlen.toNat → exec (.rxb b) s =
      .next { s with
        d := Memory.write s.d s.len.toNat b, len := s.len + 1#32, c := crcUpd s.c b, phase := .rxCrc, idx := 0#32 }) ∧
    (s.len.toNat + 1 < s.rxlen.toNat → exec (.rxb b) s =
      .next { s with
        d := Memory.write s.d s.len.toNat b, len := s.len + 1#32, c := crcUpd s.c b, idx := s.len + 1#32 })

/-- R167, R258: `RXB` in phase `RX_CRC` shifts the byte in, most significant first; on the fourth byte the received crc is
compared with the finalised accumulator, and `CrcMismatch` is raised exactly when they differ. -/
def Obligations.RxbInCrcPhase : Prop :=
  ∀ (s : State) (b : Byte) (r : Word), s.phase = .rxCrc → s.err = .none → r = (s.rxcrc <<< 8) ||| b.setWidth 32 →
    (s.idx.toNat < 3 → exec (.rxb b) s = .next { s with rxcrc := r, idx := s.idx + 1#32 }) ∧
    (s.idx.toNat = 3 → r ≠ s.c ^^^ 0xFFFFFFFF#32 →
      exec (.rxb b) s = .next { s with rxcrc := r, err := .crcMismatch, phase := .idle, idx := 0#32 }) ∧
    (s.idx.toNat = 3 → r = s.c ^^^ 0xFFFFFFFF#32 →
      exec (.rxb b) s = .next { s with rxcrc := r, phase := .idle, idx := 0#32 })

/-- R168, R185, R257, R259: `RXEOF` by phase. -/
def Obligations.RxeofByPhase : Prop :=
  encode .rxeof = 0x4300#16 ∧
  (∀ s : State, s.Ready → exec .rxeof s = .next s) ∧
  (∀ s : State, s.phase = .rxSig → s.err = .none → exec .rxeof s = .next (s.raised .invalidSignature)) ∧
  (∀ s : State, s.phase ∈ [Phase.rxLen, .rxType, .rxData, .rxCrc] → s.err = .none →
    exec .rxeof s = .next (s.raised .unexpectedEof))

/-! ### The sequencer -/

/-- R145 to R148: the sequencer steps that transmit a frame, each moving one byte. -/
def Obligations.TransmitStepsMoveOneByte : Prop :=
  (∀ (s : State) (b : Byte), s.phase = .txLen → (be32 s.len)[s.idx.toNat]? = some b →
    seqStep s = .next { s with
      out := s.out ++ [b]
      phase := if s.idx.toNat < 3 then .txLen else .txType
      idx := if s.idx.toNat < 3 then s.idx + 1#32 else 0#32 }) ∧
  (∀ (s : State) (b : Byte), s.phase = .txType → s.t.bytes[s.idx.toNat]? = some b →
    seqStep s = .next { s with
      out := s.out ++ [b], c := crcUpd s.c b
      phase := if s.idx.toNat < 3 then .txType else if s.len = 0#32 then .txCrc else .txData
      idx := if s.idx.toNat < 3 then s.idx + 1#32 else 0#32 }) ∧
  (∀ (s : State) (b : Byte), s.phase = .txData → s.readBuffer s.idx = some b →
    seqStep s = .next { s with
      out := s.out ++ [b], c := crcUpd s.c b
      phase := if s.idx.toNat + 1 = s.len.toNat then .txCrc else .txData
      idx := if s.idx.toNat + 1 = s.len.toNat then 0#32 else s.idx + 1#32 }) ∧
  (∀ (s : State) (b : Byte), s.phase = .txCrc → (be32 (s.c ^^^ 0xFFFFFFFF#32))[s.idx.toNat]? = some b →
    seqStep s = .next { s with
      out := s.out ++ [b]
      phase := if s.idx.toNat < 3 then .txCrc else .idle
      idx := if s.idx.toNat < 3 then s.idx + 1#32 else 0#32 })

/-- R127, R128: the sequencer steps of `CCALC`, which fold one byte each and emit nothing. -/
def Obligations.CrcStepsFoldOneByte : Prop :=
  (∀ (s : State) (b : Byte), s.phase = .ccType → s.t.bytes[s.idx.toNat]? = some b →
    seqStep s = .next { s with
      c := crcUpd s.c b
      phase := if s.idx.toNat < 3 then .ccType else if s.len = 0#32 then .idle else .ccData
      idx := if s.idx.toNat < 3 then s.idx + 1#32 else 0#32 }) ∧
  (∀ (s : State) (b : Byte), s.phase = .ccData → s.readBuffer s.idx = some b →
    seqStep s = .next { s with
      c := crcUpd s.c b
      phase := if s.idx.toNat + 1 = s.len.toNat then .idle else .ccData
      idx := if s.idx.toNat + 1 = s.len.toNat then 0#32 else s.idx + 1#32 })

/-- R209: `SIG` takes exactly 8 sequencer steps, `EMIT` exactly `12 + LEN`, `CCALC` exactly `4 + LEN`: after each smaller
number the phase is still autonomous, after that number it is `IDLE`. -/
def Obligations.AutonomousPhasesEndOnTime : Prop :=
  ∀ (s u : State) (i : Instr) (n : Nat), s.Inv → s.Ready → s.rst = [] →
    (i = .sig ∧ n = 8 ∨ i = .emit ∧ n = 12 + s.len.toNat ∨ i = .ccalc ∧ n = 4 + s.len.toNat) →
    exec i s = .next u →
    (∀ k < n, ∃ v, Sys2Proof.core.run k u = .next v ∧ v.phase.autonomous = true) ∧
    ∃ v, Sys2Proof.core.run n u = .next v ∧ v.phase = .idle ∧ v.err = .none

/-- R149: the net effect of `EMIT`: exactly the frame of the current chunk on `OUT`, `C` the raw CRC of type and data, nothing
else changed; words on the port stay held. -/
def Obligations.EmitSendsTheFrame : Prop :=
  ∀ s : State, s.Inv → s.Ready → s.rst = [] →
    ∃ u, exec .emit s = .next u ∧
      u = { s with c := 0xFFFFFFFF#32, phase := .txLen, idx := 0#32 } ∧
      Sys2Proof.core.run (12 + s.len.toNat) u = .next { s with
        c := crcRaw (s.t.bytes ++ s.payload), out := s.out ++ frame s.t.bytes s.payload }

/-- R126: the net effect of `CCALC`: `C` the raw CRC of the current chunk, so that the read word `CRC` is its crc; nothing
else changed and nothing emitted. -/
def Obligations.CcalcComputesTheChunkCrc : Prop :=
  ∀ s : State, s.Inv → s.Ready → s.rst = [] →
    ∃ u v, exec .ccalc s = .next u ∧
      u = { s with c := 0xFFFFFFFF#32, phase := .ccType, idx := 0#32 } ∧
      Sys2Proof.core.run (4 + s.len.toNat) u = .next v ∧
      v = { s with c := crcRaw (s.t.bytes ++ s.payload) } ∧
      v.readWord 3 = crc32 (s.t.bytes ++ s.payload)

/-- R181, R182: the net effect of `SIG`: exactly the eight signature bytes on `OUT`, nothing else changed. -/
def Obligations.SigSendsTheSignature : Prop :=
  ∀ s : State, s.Inv → s.Ready → s.rst = [] →
    ∃ u, exec .sig s = .next u ∧
      u = { s with phase := .txSig, idx := 0#32 } ∧
      Sys2Proof.core.run 8 u = .next { s with
        out := s.out ++ [0x89#8, 0x50#8, 0x4E#8, 0x47#8, 0x0D#8, 0x0A#8, 0x1A#8, 0x0A#8] }

/-! ### The deframer as a whole -/

/-- R169: the bytes of a frame delivered after `RXCHUNK` rebuild its chunk, with no error and nothing emitted. -/
def Obligations.SuccessfulParseRebuildsTheChunk : Prop :=
  ∀ (s : State) (t : TypeReg) (d : List Byte), s.Ready → d.length ≤ s.dataMax.toNat →
    ∃ u v, exec .rxchunk s = .next u ∧ deliver (frame t.bytes d) u = .next v ∧
      v = { s with
        t := t, c := crcRaw (t.bytes ++ d), len := BitVec.ofNat 32 d.length, d := Memory.ofBytesAt 0 d
        rxlen := BitVec.ofNat 32 d.length, rxcrc := crc32 (t.bytes ++ d), phase := .idle, idx := 0#32 } ∧
      v.payload = d

/-- R171: whatever bytes parse without error, a following `EMIT` puts exactly those bytes on `OUT`. -/
def Obligations.ParseThenEmitReproducesTheInput : Prop :=
  ∀ (s u v w : State) (bs : List Byte), s.Inv → s.Ready → s.rst = [] →
    exec .rxchunk s = .next u → deliver bs u = .next v → v.Ready → exec .emit v = .next w →
    bs.length = 12 + v.len.toNat ∧
    ∃ x, Sys2Proof.core.run (12 + v.len.toNat) w = .next x ∧ x.phase = .idle ∧ x.out = s.out ++ bs

/-- R172: a frame with any one byte of its type or data region changed is refused with `CrcMismatch`. -/
def Obligations.ChangedByteGivesCrcMismatch : Prop :=
  ∀ (s : State) (t : TypeReg) (d : List Byte) (k : Nat) (b : Byte), s.Ready → d.length ≤ s.dataMax.toNat →
    4 ≤ k → k < 8 + d.length → (frame t.bytes d)[k]? ≠ some b →
    ∃ u v, exec .rxchunk s = .next u ∧ deliver ((frame t.bytes d).set k b) u = .next v ∧
      v.err = .crcMismatch ∧ v.phase = .idle ∧ v.out = s.out

/-- R164, R170, R15: the host's procedure on CRCF gives the verdict of `parse_chunk`, leaves the same bytes unconsumed and, on
success, holds the parsed chunk; wherever the declared length does not exceed the capacity, so for every input when
`DATA_MAX = 2^32 - 1`. It may be started in `IDLE` and in every autonomous phase, which then ends first, the command being
held. -/
def Obligations.HostParseAgreesWithParseChunk : Prop :=
  ∀ (s : State) (bs : List Byte), s.Inv → s.err = .none → s.phase.waiting = false →
    (∀ b0 b1 b2 b3 rest, bs = b0 :: b1 :: b2 :: b3 :: rest → fromBe32 b0 b1 b2 b3 ≤ s.dataMax) →
    ∃ u left, hostParseChunk bs s = .next (u, left) ∧ u.phase = .idle ∧ u.Inv ∧
      (∀ c rest, parseChunk bs = .ok (c, rest) → u.err = .none ∧ u.chunk = c ∧ left = rest) ∧
      (∀ e, parseChunk bs = .fail (.crcf e) → u.err = e)

/-- R186: the net effect of a signature check. When the first 8 bytes are the signature it succeeds after exactly 8 bytes;
when byte `k` is the first that differs it ends in `InvalidSignature` after `k + 1` bytes; when the input is a proper prefix of
the signature it ends so after all the bytes and the `RXEOF`. No other register changes. -/
def Obligations.SignatureCheckVerdict : Prop :=
  ∀ (s : State) (bs : List Byte), s.Ready →
    (bs.take 8 = signature →
      hostCheckSignature bs s = .next ({ s with phase := .idle, idx := 0#32 }, bs.drop 8)) ∧
    (∀ k : Nat, k < 8 → k < bs.length → bs.take k = signature.take k → bs[k]? ≠ signature[k]? →
      hostCheckSignature bs s =
        .next ({ s with phase := .idle, idx := 0#32, err := .invalidSignature }, bs.drop (k + 1))) ∧
    (bs.length < 8 → bs = signature.take bs.length →
      hostCheckSignature bs s = .next ({ s with phase := .idle, idx := 0#32, err := .invalidSignature }, []))

/-- R232, R225, R224: a file's bytes parse back to its chunks, in order. -/
def Obligations.FileRoundTrip : Prop :=
  ∀ p : Png, (∀ c ∈ p, c.data.length < 2 ^ 32) → parsePng (Png.bytes p) = .ok p

/-! ### Invariants -/

/-- R41 at reset: every reset state of legal capacity satisfies the invariant, and `State.reset` is one. -/
def Obligations.ResetSatisfiesTheInvariant : Prop :=
  (∀ n : Word, n ≠ 0#32 → (State.resetWith n).Inv ∧ (State.resetWith n).CrcTracks) ∧ State.reset.Inv

/-- R41: every step keeps the invariant, from every state that has it. -/
def Obligations.EveryStepKeepsTheInvariant : Prop :=
  ∀ s s' : State, s.Inv → step s = .next s' → s'.Inv

/-- R150 as an invariant: in every operation in progress the accumulator is the raw CRC of exactly the type and payload bytes
moved so far, so the crc field sent can only be that of the bytes just sent. -/
def Obligations.EveryStepKeepsTheCrcConsistent : Prop :=
  ∀ s s' : State, s.Inv → s.CrcTracks → step s = .next s' → s'.CrcTracks

/-- R41 as the spec states it: of every reachable state. -/
def Obligations.ReachableStatesSatisfyR41 : Prop :=
  ∀ s : State, Reachable s →
    s.len ≤ s.dataMax ∧ s.PositionOk ∧
    (s.err ≠ .none → s.phase = .idle ∧ s.idx = 0#32) ∧
    (s.phase = .txData ∨ s.phase = .ccData → s.idx < s.len) ∧
    (s.phase = .rxData → s.idx = s.len ∧ s.len < s.rxlen ∧ s.rxlen ≤ s.dataMax) ∧
    (s.phase = .rxType ∨ s.phase = .rxData ∨ s.phase = .rxCrc → s.rxlen ≤ s.dataMax) ∧
    (∀ i : Word, i < s.len → ∃ b, s.readBuffer i = some b)

/-- CRCF cannot stop by itself (R209, R252): in every state that has the invariant the step answers a next state. Where CRCF has
no enabled step (`IDLE` or a waiting phase with no word, R275), that the model's step answers one is the model's choice (log
entry 3). -/
def Obligations.NoStepStopsTheMachine : Prop :=
  ∀ s : State, s.Inv → ∃ s', step s = .next s'

/-- R252: no autonomous phase raises anything, and the commands named there, performed, raise nothing of their own. -/
def Obligations.WhatCannotFail : Prop :=
  (∀ s s' : State, s.phase.autonomous = true → seqStep s = .next s' → s'.err = s.err) ∧
  (∀ (s : State) (i : Instr), s.Ready →
    i ∈ [Instr.nop, .eclr, .srst, .cinit, .ccalc, .dclr, .sig, .emit, .rxsig, .rxchunk] ∨
      (∃ b, i ∈ [Instr.cupd b, .ldt0 b, .ldt1 b, .ldt2 b, .ldt3 b]) →
    ∃ s', exec i s = .next s' ∧ s'.err = .none)

/-! ### The CRC function -/

/-- R129: the table-driven form, and the 256 entries the spec prints. -/
def Obligations.CrcTableDrivenForm : Prop :=
  crcTable.length = 256 ∧
  (∀ i : Nat, i < 256 → crcTable[i]? = some (crcUpd 0#32 (BitVec.ofNat 8 i))) ∧
  (∀ (c : Word) (b : Byte),
    crcTable[((c ^^^ b.setWidth 32) &&& 0xFF#32).toNat]? = some (crcUpd c b ^^^ (c >>> 8)))

/-- R130 (b): `crc_upd` is linear over GF(2) in the pair. -/
def Obligations.CrcUpdateIsLinear : Prop :=
  ∀ (c1 c2 : Word) (b1 b2 : Byte), crcUpd (c1 ^^^ c2) (b1 ^^^ b2) = crcUpd c1 b1 ^^^ crcUpd c2 b2

/-- R122: for a fixed byte, `crc_upd` is a bijection on the 32-bit values. -/
def Obligations.CrcUpdateIsBijective : Prop :=
  ∀ b : Byte, Function.Bijective fun c : Word => crcUpd c b

/-- R130 (d): two sequences of equal length that differ in exactly one byte have different CRC-32. -/
def Obligations.CrcDetectsOneChangedByte : Prop :=
  ∀ (xs ys : List Byte) (a b : Byte), a ≠ b → crc32 (xs ++ a :: ys) ≠ crc32 (xs ++ b :: ys)

/-- R123, R130 (a), R132: `raw` and `crc32` by their laws, and the values the spec lists. -/
def Obligations.CrcLawsAndValues : Prop :=
  crcRaw [] = 0xFFFFFFFF#32 ∧
  (∀ (xs : List Byte) (b : Byte), crcRaw (xs ++ [b]) = crcUpd (crcRaw xs) b) ∧
  (∀ xs : List Byte, crc32 xs = crcRaw xs ^^^ 0xFFFFFFFF#32) ∧
  crc32 [] = 0x00000000#32 ∧ crc32 [0x00#8] = 0xD202EF8D#32 ∧
  crc32 [0x31#8, 0x32#8, 0x33#8, 0x34#8, 0x35#8, 0x36#8, 0x37#8, 0x38#8, 0x39#8] = 0xCBF43926#32 ∧
  crc32 [0x49#8, 0x45#8, 0x4E#8, 0x44#8] = 0xAE426082#32

/-! ### Flags and the read port -/

/-- R104 to R108: the four bit flags and `PRIV`, by the weight `0x20` of bit 5 of each byte. -/
def Obligations.TypeFlagsAreBitFive : Prop :=
  ∀ t : TypeReg,
    (t.crit = true ↔ t.b0 &&& 0x20#8 = 0#8) ∧ (t.pub = true ↔ t.b1 &&& 0x20#8 = 0#8) ∧
    (t.priv = true ↔ t.b1 &&& 0x20#8 ≠ 0#8) ∧ (t.priv = !t.pub) ∧
    (t.rsvok = true ↔ t.b2 &&& 0x20#8 = 0#8) ∧ (t.safe = true ↔ t.b3 &&& 0x20#8 ≠ 0#8)

/-- R109, R110: a type is valid exactly when its four bytes are ASCII letters and the reserved bit is clear; its third byte
is then an upper-case letter. -/
def Obligations.ValidTypesAreLettersWithReservedBitClear : Prop :=
  ∀ t : TypeReg,
    (t.valid = true ↔
      (∀ b ∈ t.bytes, (0x41 ≤ b.toNat ∧ b.toNat ≤ 0x5A) ∨ (0x61 ≤ b.toNat ∧ b.toNat ≤ 0x7A)) ∧
      t.b2 &&& 0x20#8 = 0#8) ∧
    (t.valid = true → 0x41 ≤ t.b2.toNat ∧ t.b2.toNat ≤ 0x5A)

/-- R111: the type gates no command: with another value in `T` the same command has the same effect on everything else. (In an
autonomous phase `exec` answers the unchanged state, log entry 7.) -/
def Obligations.TypeGatesNoCommand : Prop :=
  ∀ (i : Instr) (s u : State) (t : TypeReg), exec i s = .next u →
    ∃ t', exec i { s with t := t } = .next { u with t := t' }

/-- R33: the fields of the status word, and its reset value. -/
def Obligations.StatusWordFields : Prop :=
  (∀ n : Word, (State.resetWith n).readWord 0 = 0x00000700#32) ∧
  ∀ s : State,
    (s.readWord 0).extractLsb' 0 4 = s.err.code ∧ (s.readWord 0).extractLsb' 4 4 = s.phase.code ∧
    (s.readWord 0).getLsbD 8 = s.t.crit ∧ (s.readWord 0).getLsbD 9 = s.t.pub ∧
    (s.readWord 0).getLsbD 10 = s.t.rsvok ∧ (s.readWord 0).getLsbD 11 = s.t.safe ∧
    (s.readWord 0).getLsbD 12 = s.t.priv ∧ (s.readWord 0).getLsbD 13 = s.t.valid ∧
    (s.readWord 0) >>> 14 = 0#32

/-- R28 and R251: the codes by which the status word shows the phase and the error. -/
def Obligations.CodesInTheStatusWord : Prop :=
  [Phase.idle, .txSig, .txLen, .txType, .txData, .txCrc, .ccType, .ccData, .rxSig, .rxLen, .rxType, .rxData, .rxCrc].map
      Phase.code = [0#4, 1#4, 2#4, 3#4, 4#4, 5#4, 6#4, 7#4, 8#4, 9#4, 10#4, 11#4, 12#4] ∧
  [Err.none, .unexpectedEof, .crcMismatch, .invalidSignature, .illegalCommand, .badSequence, .overflow].map Err.code =
    [0#4, 3#4, 4#4, 5#4, 8#4, 9#4, 10#4]

/-- R34: the word map of the read port, with `TYPE` read like the wire. -/
def Obligations.ReadPortWordMap : Prop :=
  ∀ s : State,
    be32 (s.readWord 1) = s.t.bytes ∧ s.readWord 2 = s.len ∧
    s.readWord 3 = s.c ^^^ 0xFFFFFFFF#32 ∧ s.readWord 4 = s.c ∧ s.readWord 5 = s.rxlen ∧
    s.readWord 6 = s.rxcrc ∧ s.readWord 7 = s.idx ∧ s.readWord 8 = s.dataMax ∧
    ∀ i : BitVec 4, 9 ≤ i.toNat → s.readWord i = 0#32

/-- R35, R52: the buffer read port returns a byte exactly below `LEN`, the payload's, and is refused elsewhere. -/
def Obligations.BufferPortReadsThePayload : Prop :=
  ∀ s : State, s.Inv →
    s.payload.length = s.len.toNat ∧
    (∀ i : Word, i < s.len → ∃ b, s.readBuffer i = some b ∧ s.payload[i.toNat]? = some b) ∧
    (∀ i : Word, s.len ≤ i → s.readBuffer i = none)

/-! ### Frames -/

/-- R26: a command changes a register only where the table gives it a write, and emits nothing; the host's words and the
parameter are never changed by a command's effect. `ERR` is changed by no command but `ECLR`, `SRST` and one that raises an
error of its own or of the dispatch, which it does only with none latched; `PHASE` and `IDX` are changed only by the commands
the table gives a write of them, and by raising. (In an autonomous phase `exec` answers the unchanged state, log entry 7.) -/
def Obligations.CommandsWriteOnlyTheirRegisters : Prop :=
  ∀ (i : Instr) (s u : State), exec i s = .next u →
    (writesT i s.phase = false → u.t = s.t) ∧ (writesC i s.phase = false → u.c = s.c) ∧
    (writesBuffer i s.phase = false → u.len = s.len ∧ u.d = s.d) ∧
    (writesRxlen i s.phase = false → u.rxlen = s.rxlen) ∧ (writesRxcrc i s.phase = false → u.rxcrc = s.rxcrc) ∧
    (writesPosition i = false → u.err = s.err ∨ i = .eclr → u.phase = s.phase ∧ u.idx = s.idx) ∧
    (i ≠ .eclr → i ≠ .srst → u.err = s.err ∨
      s.err = .none ∧ u.err ∈ raises i s.phase ∧ u.phase = .idle ∧ u.idx = 0#32) ∧
    u.out = s.out ∧ u.dataMax = s.dataMax ∧ u.words = s.words ∧ u.rst = s.rst

/-- R53, R54: a command leaves every byte of the buffer but the one at the address it stores to, which is `LEN`; the commands
that empty the buffer leave no byte readable. (In an autonomous phase `exec` answers the unchanged state, log entry 7.) -/
def Obligations.CommandsLeaveOtherBufferBytes : Prop :=
  ∀ (i : Instr) (s u : State), exec i s = .next u →
    (emptiesBuffer i = false →
      ∀ a : Nat, storedAddress i s ≠ some a → Memory.read u.d a = Memory.read s.d a) ∧
    (emptiesBuffer i = true → s.Ready → ∀ a : Nat, Memory.read u.d a = none ∧ u.readBuffer (BitVec.ofNat 32 a) = none)

/-- R114, R26: a sequencer step changes only `C`, `PHASE`, `IDX` and `OUT`, and emits nothing in `CC_TYPE` and `CC_DATA`. -/
def Obligations.SequencerStepFrame : Prop :=
  ∀ s u : State, seqStep s = .next u →
    u.t = s.t ∧ u.len = s.len ∧ u.d = s.d ∧ u.rxlen = s.rxlen ∧ u.rxcrc = s.rxcrc ∧ u.err = s.err ∧
    u.dataMax = s.dataMax ∧ u.words = s.words ∧ u.rst = s.rst ∧
    (s.phase = .txSig ∨ s.phase = .txLen ∨ s.phase = .txCrc → u.c = s.c) ∧
    (s.phase = .ccType ∨ s.phase = .ccData → u.out = s.out)

/-- R36, R303: no step, a reset step included, takes a byte back from `OUT`; a step adds at most one, and only in a `TX_*`
phase. -/
def Obligations.OutputIsAppendOnly : Prop :=
  ∀ s u : State, step s = .next u →
    ∃ bs : List Byte, u.out = s.out ++ bs ∧ bs.length ≤ 1 ∧
      (bs ≠ [] → s.phase ∈ [Phase.txSig, .txLen, .txType, .txData, .txCrc])
end

