-- ==== Sys2Proof/Laws/Host.lean ====
section
/-! SUPPORT. What the host's shared operations can do, said once: issuing a command, with and without a phase to wait for, and
the frame of data that fit the length field. -/

namespace Sys2Proof.Machine

/-- A state that accepts commands is settled. -/
theorem settle_accepting (n : Nat) (s : State) (h : s.phase.autonomous = false) : settle n s = .next s := by
  unfold settle
  simp [h]

/-- In an autonomous phase settling takes the sequencer's step first. -/
theorem settle_autonomous (n : Nat) (s u : State) (h : s.phase.autonomous = true) (hu : seqStep s = .next u) :
    settle (n + 1) s = settle n u := by
  simp [settle, h, hu]

/-- A command issued where commands are accepted is performed at once. -/
theorem hostSend_accepting (i : Instr) (s : State) (h : s.phase.autonomous = false) : hostSend i s = exec i s := by
  simp [hostSend, settle_accepting _ s h]

/-- A command that was issued is performed in the state the wait ended in. -/
theorem hostSend_next (i : Instr) (s u : State) (h : hostSend i s = .next u) :
    ∃ v, settle (12 + s.len.toNat) s = .next v ∧ exec i v = .next u := by
  unfold hostSend at h
  split at h
  · next v hv => exact ⟨v, hv, h⟩
  · cases h
  · cases h

/-- The frame of data that fit the length field (R144). -/
theorem frame_eq (t d : List Byte) (h : d.length < 2 ^ 32) :
    frame t d = be32 (BitVec.ofNat 32 d.length) ++ t ++ d ++ be32 (crc32 (t ++ d)) := by
  unfold frame
  exact if_pos h

/-- A frame is 12 bytes longer than its data (R144). -/
theorem frame_length (t : TypeReg) (d : List Byte) (h : d.length < 2 ^ 32) : (frame t.bytes d).length = 12 + d.length := by
  simp only [frame_eq _ _ h, List.length_append, be32, TypeReg.bytes, List.length_cons, List.length_nil]
  omega

end Sys2Proof.Machine
end

