-- ==== Sys2Proof/Laws/State.lean ====
section
/-! SUPPORT. What each named register operation does to each field of the state, one lemma per field per operation, so that
no later proof unfolds a record update. -/

namespace Sys2Proof.Machine

variable (s : State)

/-! ### `State.goto` -/

@[simp] theorem State.goto_t (p : Phase) (i : Word) : (s.goto p i).t = s.t := rfl
@[simp] theorem State.goto_c (p : Phase) (i : Word) : (s.goto p i).c = s.c := rfl
@[simp] theorem State.goto_len (p : Phase) (i : Word) : (s.goto p i).len = s.len := rfl
@[simp] theorem State.goto_d (p : Phase) (i : Word) : (s.goto p i).d = s.d := rfl
@[simp] theorem State.goto_rxlen (p : Phase) (i : Word) : (s.goto p i).rxlen = s.rxlen := rfl
@[simp] theorem State.goto_rxcrc (p : Phase) (i : Word) : (s.goto p i).rxcrc = s.rxcrc := rfl
@[simp] theorem State.goto_phase (p : Phase) (i : Word) : (s.goto p i).phase = p := rfl
@[simp] theorem State.goto_idx (p : Phase) (i : Word) : (s.goto p i).idx = i := rfl
@[simp] theorem State.goto_err (p : Phase) (i : Word) : (s.goto p i).err = s.err := rfl
@[simp] theorem State.goto_dataMax (p : Phase) (i : Word) : (s.goto p i).dataMax = s.dataMax := rfl
@[simp] theorem State.goto_out (p : Phase) (i : Word) : (s.goto p i).out = s.out := rfl
@[simp] theorem State.goto_words (p : Phase) (i : Word) : (s.goto p i).words = s.words := rfl
@[simp] theorem State.goto_rst (p : Phase) (i : Word) : (s.goto p i).rst = s.rst := rfl

/-! ### `State.emit` -/

@[simp] theorem State.emit_t (b : Byte) : (s.emit b).t = s.t := rfl
@[simp] theorem State.emit_c (b : Byte) : (s.emit b).c = s.c := rfl
@[simp] theorem State.emit_len (b : Byte) : (s.emit b).len = s.len := rfl
@[simp] theorem State.emit_d (b : Byte) : (s.emit b).d = s.d := rfl
@[simp] theorem State.emit_rxlen (b : Byte) : (s.emit b).rxlen = s.rxlen := rfl
@[simp] theorem State.emit_rxcrc (b : Byte) : (s.emit b).rxcrc = s.rxcrc := rfl
@[simp] theorem State.emit_phase (b : Byte) : (s.emit b).phase = s.phase := rfl
@[simp] theorem State.emit_idx (b : Byte) : (s.emit b).idx = s.idx := rfl
@[simp] theorem State.emit_err (b : Byte) : (s.emit b).err = s.err := rfl
@[simp] theorem State.emit_dataMax (b : Byte) : (s.emit b).dataMax = s.dataMax := rfl
@[simp] theorem State.emit_out (b : Byte) : (s.emit b).out = s.out ++ [b] := rfl
@[simp] theorem State.emit_words (b : Byte) : (s.emit b).words = s.words := rfl
@[simp] theorem State.emit_rst (b : Byte) : (s.emit b).rst = s.rst := rfl

/-! ### `State.seedCrc` -/

@[simp] theorem State.seedCrc_t : (s.seedCrc).t = s.t := rfl
@[simp] theorem State.seedCrc_c : (s.seedCrc).c = crcSeed := rfl
@[simp] theorem State.seedCrc_len : (s.seedCrc).len = s.len := rfl
@[simp] theorem State.seedCrc_d : (s.seedCrc).d = s.d := rfl
@[simp] theorem State.seedCrc_rxlen : (s.seedCrc).rxlen = s.rxlen := rfl
@[simp] theorem State.seedCrc_rxcrc : (s.seedCrc).rxcrc = s.rxcrc := rfl
@[simp] theorem State.seedCrc_phase : (s.seedCrc).phase = s.phase := rfl
@[simp] theorem State.seedCrc_idx : (s.seedCrc).idx = s.idx := rfl
@[simp] theorem State.seedCrc_err : (s.seedCrc).err = s.err := rfl
@[simp] theorem State.seedCrc_dataMax : (s.seedCrc).dataMax = s.dataMax := rfl
@[simp] theorem State.seedCrc_out : (s.seedCrc).out = s.out := rfl
@[simp] theorem State.seedCrc_words : (s.seedCrc).words = s.words := rfl
@[simp] theorem State.seedCrc_rst : (s.seedCrc).rst = s.rst := rfl

/-! ### `State.foldByte` -/

@[simp] theorem State.foldByte_t (b : Byte) : (s.foldByte b).t = s.t := rfl
@[simp] theorem State.foldByte_c (b : Byte) : (s.foldByte b).c = crcUpd s.c b := rfl
@[simp] theorem State.foldByte_len (b : Byte) : (s.foldByte b).len = s.len := rfl
@[simp] theorem State.foldByte_d (b : Byte) : (s.foldByte b).d = s.d := rfl
@[simp] theorem State.foldByte_rxlen (b : Byte) : (s.foldByte b).rxlen = s.rxlen := rfl
@[simp] theorem State.foldByte_rxcrc (b : Byte) : (s.foldByte b).rxcrc = s.rxcrc := rfl
@[simp] theorem State.foldByte_phase (b : Byte) : (s.foldByte b).phase = s.phase := rfl
@[simp] theorem State.foldByte_idx (b : Byte) : (s.foldByte b).idx = s.idx := rfl
@[simp] theorem State.foldByte_err (b : Byte) : (s.foldByte b).err = s.err := rfl
@[simp] theorem State.foldByte_dataMax (b : Byte) : (s.foldByte b).dataMax = s.dataMax := rfl
@[simp] theorem State.foldByte_out (b : Byte) : (s.foldByte b).out = s.out := rfl
@[simp] theorem State.foldByte_words (b : Byte) : (s.foldByte b).words = s.words := rfl
@[simp] theorem State.foldByte_rst (b : Byte) : (s.foldByte b).rst = s.rst := rfl

/-! ### `State.loadType` -/

@[simp] theorem State.loadType_t (i : Fin 4) (b : Byte) : (s.loadType i b).t = s.t.set i b := rfl
@[simp] theorem State.loadType_c (i : Fin 4) (b : Byte) : (s.loadType i b).c = s.c := rfl
@[simp] theorem State.loadType_len (i : Fin 4) (b : Byte) : (s.loadType i b).len = s.len := rfl
@[simp] theorem State.loadType_d (i : Fin 4) (b : Byte) : (s.loadType i b).d = s.d := rfl
@[simp] theorem State.loadType_rxlen (i : Fin 4) (b : Byte) : (s.loadType i b).rxlen = s.rxlen := rfl
@[simp] theorem State.loadType_rxcrc (i : Fin 4) (b : Byte) : (s.loadType i b).rxcrc = s.rxcrc := rfl
@[simp] theorem State.loadType_phase (i : Fin 4) (b : Byte) : (s.loadType i b).phase = s.phase := rfl
@[simp] theorem State.loadType_idx (i : Fin 4) (b : Byte) : (s.loadType i b).idx = s.idx := rfl
@[simp] theorem State.loadType_err (i : Fin 4) (b : Byte) : (s.loadType i b).err = s.err := rfl
@[simp] theorem State.loadType_dataMax (i : Fin 4) (b : Byte) : (s.loadType i b).dataMax = s.dataMax := rfl
@[simp] theorem State.loadType_out (i : Fin 4) (b : Byte) : (s.loadType i b).out = s.out := rfl
@[simp] theorem State.loadType_words (i : Fin 4) (b : Byte) : (s.loadType i b).words = s.words := rfl
@[simp] theorem State.loadType_rst (i : Fin 4) (b : Byte) : (s.loadType i b).rst = s.rst := rfl

/-! ### `State.clearRx` -/

@[simp] theorem State.clearRx_t : (s.clearRx).t = s.t := rfl
@[simp] theorem State.clearRx_c : (s.clearRx).c = s.c := rfl
@[simp] theorem State.clearRx_len : (s.clearRx).len = s.len := rfl
@[simp] theorem State.clearRx_d : (s.clearRx).d = s.d := rfl
@[simp] theorem State.clearRx_rxlen : (s.clearRx).rxlen = 0#32 := rfl
@[simp] theorem State.clearRx_rxcrc : (s.clearRx).rxcrc = 0#32 := rfl
@[simp] theorem State.clearRx_phase : (s.clearRx).phase = s.phase := rfl
@[simp] theorem State.clearRx_idx : (s.clearRx).idx = s.idx := rfl
@[simp] theorem State.clearRx_err : (s.clearRx).err = s.err := rfl
@[simp] theorem State.clearRx_dataMax : (s.clearRx).dataMax = s.dataMax := rfl
@[simp] theorem State.clearRx_out : (s.clearRx).out = s.out := rfl
@[simp] theorem State.clearRx_words : (s.clearRx).words = s.words := rfl
@[simp] theorem State.clearRx_rst : (s.clearRx).rst = s.rst := rfl

/-! ### `State.shiftLen` -/

@[simp] theorem State.shiftLen_t (b : Byte) : (s.shiftLen b).t = s.t := rfl
@[simp] theorem State.shiftLen_c (b : Byte) : (s.shiftLen b).c = s.c := rfl
@[simp] theorem State.shiftLen_len (b : Byte) : (s.shiftLen b).len = s.len := rfl
@[simp] theorem State.shiftLen_d (b : Byte) : (s.shiftLen b).d = s.d := rfl
@[simp] theorem State.shiftLen_rxlen (b : Byte) : (s.shiftLen b).rxlen = shiftIn s.rxlen b := rfl
@[simp] theorem State.shiftLen_rxcrc (b : Byte) : (s.shiftLen b).rxcrc = s.rxcrc := rfl
@[simp] theorem State.shiftLen_phase (b : Byte) : (s.shiftLen b).phase = s.phase := rfl
@[simp] theorem State.shiftLen_idx (b : Byte) : (s.shiftLen b).idx = s.idx := rfl
@[simp] theorem State.shiftLen_err (b : Byte) : (s.shiftLen b).err = s.err := rfl
@[simp] theorem State.shiftLen_dataMax (b : Byte) : (s.shiftLen b).dataMax = s.dataMax := rfl
@[simp] theorem State.shiftLen_out (b : Byte) : (s.shiftLen b).out = s.out := rfl
@[simp] theorem State.shiftLen_words (b : Byte) : (s.shiftLen b).words = s.words := rfl
@[simp] theorem State.shiftLen_rst (b : Byte) : (s.shiftLen b).rst = s.rst := rfl

/-! ### `State.shiftCrc` -/

@[simp] theorem State.shiftCrc_t (b : Byte) : (s.shiftCrc b).t = s.t := rfl
@[simp] theorem State.shiftCrc_c (b : Byte) : (s.shiftCrc b).c = s.c := rfl
@[simp] theorem State.shiftCrc_len (b : Byte) : (s.shiftCrc b).len = s.len := rfl
@[simp] theorem State.shiftCrc_d (b : Byte) : (s.shiftCrc b).d = s.d := rfl
@[simp] theorem State.shiftCrc_rxlen (b : Byte) : (s.shiftCrc b).rxlen = s.rxlen := rfl
@[simp] theorem State.shiftCrc_rxcrc (b : Byte) : (s.shiftCrc b).rxcrc = shiftIn s.rxcrc b := rfl
@[simp] theorem State.shiftCrc_phase (b : Byte) : (s.shiftCrc b).phase = s.phase := rfl
@[simp] theorem State.shiftCrc_idx (b : Byte) : (s.shiftCrc b).idx = s.idx := rfl
@[simp] theorem State.shiftCrc_err (b : Byte) : (s.shiftCrc b).err = s.err := rfl
@[simp] theorem State.shiftCrc_dataMax (b : Byte) : (s.shiftCrc b).dataMax = s.dataMax := rfl
@[simp] theorem State.shiftCrc_out (b : Byte) : (s.shiftCrc b).out = s.out := rfl
@[simp] theorem State.shiftCrc_words (b : Byte) : (s.shiftCrc b).words = s.words := rfl
@[simp] theorem State.shiftCrc_rst (b : Byte) : (s.shiftCrc b).rst = s.rst := rfl

/-! ### `State.appendByte` -/

@[simp] theorem State.appendByte_t (b : Byte) : (s.appendByte b).t = s.t := rfl
@[simp] theorem State.appendByte_c (b : Byte) : (s.appendByte b).c = s.c := rfl
@[simp] theorem State.appendByte_len (b : Byte) : (s.appendByte b).len = s.len + 1#32 := rfl
@[simp] theorem State.appendByte_d (b : Byte) : (s.appendByte b).d = Memory.write s.d s.len.toNat b := rfl
@[simp] theorem State.appendByte_rxlen (b : Byte) : (s.appendByte b).rxlen = s.rxlen := rfl
@[simp] theorem State.appendByte_rxcrc (b : Byte) : (s.appendByte b).rxcrc = s.rxcrc := rfl
@[simp] theorem State.appendByte_phase (b : Byte) : (s.appendByte b).phase = s.phase := rfl
@[simp] theorem State.appendByte_idx (b : Byte) : (s.appendByte b).idx = s.idx := rfl
@[simp] theorem State.appendByte_err (b : Byte) : (s.appendByte b).err = s.err := rfl
@[simp] theorem State.appendByte_dataMax (b : Byte) : (s.appendByte b).dataMax = s.dataMax := rfl
@[simp] theorem State.appendByte_out (b : Byte) : (s.appendByte b).out = s.out := rfl
@[simp] theorem State.appendByte_words (b : Byte) : (s.appendByte b).words = s.words := rfl
@[simp] theorem State.appendByte_rst (b : Byte) : (s.appendByte b).rst = s.rst := rfl

/-! ### `State.emptyBuffer` -/

@[simp] theorem State.emptyBuffer_t : (s.emptyBuffer).t = s.t := rfl
@[simp] theorem State.emptyBuffer_c : (s.emptyBuffer).c = s.c := rfl
@[simp] theorem State.emptyBuffer_len : (s.emptyBuffer).len = 0#32 := rfl
@[simp] theorem State.emptyBuffer_d : (s.emptyBuffer).d = [] := rfl
@[simp] theorem State.emptyBuffer_rxlen : (s.emptyBuffer).rxlen = s.rxlen := rfl
@[simp] theorem State.emptyBuffer_rxcrc : (s.emptyBuffer).rxcrc = s.rxcrc := rfl
@[simp] theorem State.emptyBuffer_phase : (s.emptyBuffer).phase = s.phase := rfl
@[simp] theorem State.emptyBuffer_idx : (s.emptyBuffer).idx = s.idx := rfl
@[simp] theorem State.emptyBuffer_err : (s.emptyBuffer).err = s.err := rfl
@[simp] theorem State.emptyBuffer_dataMax : (s.emptyBuffer).dataMax = s.dataMax := rfl
@[simp] theorem State.emptyBuffer_out : (s.emptyBuffer).out = s.out := rfl
@[simp] theorem State.emptyBuffer_words : (s.emptyBuffer).words = s.words := rfl
@[simp] theorem State.emptyBuffer_rst : (s.emptyBuffer).rst = s.rst := rfl

/-! ### `State.raise` -/

@[simp] theorem State.raise_t (e : Err) : (s.raise e).t = s.t := rfl
@[simp] theorem State.raise_c (e : Err) : (s.raise e).c = s.c := rfl
@[simp] theorem State.raise_len (e : Err) : (s.raise e).len = s.len := rfl
@[simp] theorem State.raise_d (e : Err) : (s.raise e).d = s.d := rfl
@[simp] theorem State.raise_rxlen (e : Err) : (s.raise e).rxlen = s.rxlen := rfl
@[simp] theorem State.raise_rxcrc (e : Err) : (s.raise e).rxcrc = s.rxcrc := rfl
@[simp] theorem State.raise_phase (e : Err) : (s.raise e).phase = .idle := rfl
@[simp] theorem State.raise_idx (e : Err) : (s.raise e).idx = 0#32 := rfl
@[simp] theorem State.raise_err (e : Err) : (s.raise e).err = e := rfl
@[simp] theorem State.raise_dataMax (e : Err) : (s.raise e).dataMax = s.dataMax := rfl
@[simp] theorem State.raise_out (e : Err) : (s.raise e).out = s.out := rfl
@[simp] theorem State.raise_words (e : Err) : (s.raise e).words = s.words := rfl
@[simp] theorem State.raise_rst (e : Err) : (s.raise e).rst = s.rst := rfl

/-! ### `State.clearError` -/

@[simp] theorem State.clearError_t : (s.clearError).t = s.t := rfl
@[simp] theorem State.clearError_c : (s.clearError).c = s.c := rfl
@[simp] theorem State.clearError_len : (s.clearError).len = s.len := rfl
@[simp] theorem State.clearError_d : (s.clearError).d = s.d := rfl
@[simp] theorem State.clearError_rxlen : (s.clearError).rxlen = s.rxlen := rfl
@[simp] theorem State.clearError_rxcrc : (s.clearError).rxcrc = s.rxcrc := rfl
@[simp] theorem State.clearError_phase : (s.clearError).phase = s.phase := rfl
@[simp] theorem State.clearError_idx : (s.clearError).idx = s.idx := rfl
@[simp] theorem State.clearError_err : (s.clearError).err = .none := rfl
@[simp] theorem State.clearError_dataMax : (s.clearError).dataMax = s.dataMax := rfl
@[simp] theorem State.clearError_out : (s.clearError).out = s.out := rfl
@[simp] theorem State.clearError_words : (s.clearError).words = s.words := rfl
@[simp] theorem State.clearError_rst : (s.clearError).rst = s.rst := rfl

/-! ### `State.resetRegisters` -/

@[simp] theorem State.resetRegisters_t : (s.resetRegisters).t = ⟨0#8, 0#8, 0#8, 0#8⟩ := rfl
@[simp] theorem State.resetRegisters_c : (s.resetRegisters).c = crcSeed := rfl
@[simp] theorem State.resetRegisters_len : (s.resetRegisters).len = 0#32 := rfl
@[simp] theorem State.resetRegisters_d : (s.resetRegisters).d = [] := rfl
@[simp] theorem State.resetRegisters_rxlen : (s.resetRegisters).rxlen = 0#32 := rfl
@[simp] theorem State.resetRegisters_rxcrc : (s.resetRegisters).rxcrc = 0#32 := rfl
@[simp] theorem State.resetRegisters_phase : (s.resetRegisters).phase = .idle := rfl
@[simp] theorem State.resetRegisters_idx : (s.resetRegisters).idx = 0#32 := rfl
@[simp] theorem State.resetRegisters_err : (s.resetRegisters).err = .none := rfl
@[simp] theorem State.resetRegisters_dataMax : (s.resetRegisters).dataMax = s.dataMax := rfl
@[simp] theorem State.resetRegisters_out : (s.resetRegisters).out = s.out := rfl
@[simp] theorem State.resetRegisters_words : (s.resetRegisters).words = s.words := rfl
@[simp] theorem State.resetRegisters_rst : (s.resetRegisters).rst = s.rst := rfl

end Sys2Proof.Machine
end

