-- ==== Sys2Proof/Laws/Memory.lean ====
section
/-! SUPPORT. The laws of the payload buffer: a read after a write, the canonical form kept by every operation, and what a
buffer that lists exactly `0 .. LEN-1` reads as. -/

namespace Sys2Proof.Machine

theorem Memory.read_write_same (m : Memory) (n : Nat) (v : Byte) : Memory.read (Memory.write m n v) n = some v := by
  induction m with
  | nil => simp [Memory.write, Memory.read]
  | cons x m ih =>
    obtain ⟨a, w⟩ := x
    simp only [Memory.write]
    split
    · simp [Memory.read]
    · split
      · simp [Memory.read]
      · next h h' => simp [Memory.read, Ne.symm h', ih]

theorem Memory.read_write_other (m : Memory) (n k : Nat) (v : Byte) (h : k ≠ n) :
    Memory.read (Memory.write m n v) k = Memory.read m k := by
  induction m with
  | nil => simp [Memory.write, Memory.read, Ne.symm h]
  | cons x m ih =>
    obtain ⟨a, w⟩ := x
    simp only [Memory.write]
    split
    · simp [Memory.read, Ne.symm h]
    · split
      · next hn => subst hn; simp [Memory.read, Ne.symm h]
      · simp [Memory.read, ih]

/-- What a write does to every read. -/
theorem Memory.read_write (m : Memory) (n k : Nat) (v : Byte) :
    Memory.read (Memory.write m n v) k = if k = n then some v else Memory.read m k := by
  split
  · next h => subst h; exact Memory.read_write_same _ _ _
  · next h => exact Memory.read_write_other _ _ _ _ h

/-- The canonical form, said of the addresses. -/
theorem Memory.wf_iff (m : Memory) : Memory.wf m = true ↔ (m.map Prod.fst).Pairwise (· < ·) := by
  induction m with
  | nil => simp [Memory.wf]
  | cons x m ih =>
    cases m with
    | nil => simp [Memory.wf]
    | cons y m =>
      obtain ⟨a, v⟩ := x
      obtain ⟨b, w⟩ := y
      simp only [Memory.wf, Bool.and_eq_true, decide_eq_true_eq, ih, List.map_cons, List.pairwise_cons]
      constructor
      · rintro ⟨hab, hb, hp⟩
        refine ⟨fun c hc => ?_, hb, hp⟩
        rcases List.mem_cons.mp hc with rfl | hc
        · exact hab
        · exact lt_trans hab (hb c hc)
      · rintro ⟨ha, hb, hp⟩
        exact ⟨ha b (by simp), hb, hp⟩

theorem Memory.mem_write_fst (m : Memory) (n k : Nat) (v : Byte) :
    k ∈ (Memory.write m n v).map Prod.fst ↔ k = n ∨ k ∈ m.map Prod.fst := by
  induction m with
  | nil => simp [Memory.write]
  | cons x m ih =>
    obtain ⟨a, w⟩ := x
    simp only [Memory.write]
    split
    · simp
    · split
      · next h => subst h; simp
      · simp only [List.map_cons, List.mem_cons, ih]; tauto

/-- A write keeps the canonical form. -/
theorem Memory.wf_write (m : Memory) (n : Nat) (v : Byte) (h : Memory.wf m = true) :
    Memory.wf (Memory.write m n v) = true := by
  rw [Memory.wf_iff] at h ⊢
  induction m with
  | nil => simp [Memory.write]
  | cons x m ih =>
    obtain ⟨a, w⟩ := x
    simp only [List.map_cons, List.pairwise_cons] at h
    simp only [Memory.write]
    split
    · next hn =>
      simp only [List.map_cons, List.pairwise_cons]
      refine ⟨fun c hc => ?_, h.1, h.2⟩
      rcases List.mem_cons.mp hc with rfl | hc
      · exact hn
      · exact lt_trans hn (h.1 c hc)
    · split
      · next hn => subst hn; simpa using h
      · next h1 h2 =>
        simp only [List.map_cons, List.pairwise_cons]
        refine ⟨fun c hc => ?_, ih h.2⟩
        rcases (Memory.mem_write_fst m n c v).mp hc with rfl | hc
        · omega
        · exact h.1 c hc

/-- The empty buffer, as after reset and after emptying, is in canonical form. -/
theorem Memory.wf_nil : Memory.wf [] = true := rfl

/-- A buffer that lists exactly the first `n` addresses is in canonical form. -/
theorem Memory.wf_of_range (m : Memory) (n : Nat) (h : m.map Prod.fst = List.range n) : Memory.wf m = true := by
  rw [Memory.wf_iff, h]
  exact List.pairwise_lt_range

/-- Writing just above all listed addresses puts the cell at the end. -/
theorem Memory.write_above (m : Memory) (n : Nat) (v : Byte) (h : ∀ a ∈ m.map Prod.fst, a < n) :
    Memory.write m n v = m ++ [(n, v)] := by
  induction m with
  | nil => rfl
  | cons x m ih =>
    obtain ⟨a, w⟩ := x
    have ha : a < n := h a (by simp)
    simp only [Memory.write, if_neg (not_lt.mpr ha.le), if_neg (Nat.ne_of_gt ha), List.cons_append]
    rw [ih fun b hb => h b (by simp [hb])]

/-- Appending at `LEN` a buffer that lists exactly `0 .. LEN-1`. -/
theorem Memory.write_range (m : Memory) (n : Nat) (v : Byte) (h : m.map Prod.fst = List.range n) :
    Memory.write m n v = m ++ [(n, v)] :=
  Memory.write_above m n v fun a ha => by rw [h] at ha; simpa using ha

theorem Memory.read_none_of_not_mem (m : Memory) (n : Nat) (h : n ∉ m.map Prod.fst) : Memory.read m n = none := by
  induction m with
  | nil => rfl
  | cons x m ih =>
    obtain ⟨a, w⟩ := x
    simp only [List.map_cons, List.mem_cons, not_or] at h
    simp [Memory.read, Ne.symm h.1, ih h.2]

theorem Memory.read_append (m k : Memory) (n : Nat) :
    Memory.read (m ++ k) n = (Memory.read m n).or (Memory.read k n) := by
  induction m with
  | nil => simp [Memory.read]
  | cons x m ih =>
    obtain ⟨a, w⟩ := x
    by_cases h : a = n <;> simp [Memory.read, h, ih]

/-- What a buffer that lists exactly the first `n` addresses reads as: its bytes, in order. -/
theorem Memory.read_of_range (m : Memory) (n : Nat) (h : m.map Prod.fst = List.range n) (k : Nat) :
    Memory.read m k = (m.map Prod.snd)[k]? := by
  induction m using List.reverseRecOn generalizing n with
  | nil => simp [Memory.read]
  | append_singleton m x ih =>
    obtain ⟨a, w⟩ := x
    cases n with
    | zero => simp at h
    | succ n =>
      rw [List.range_succ, List.map_append] at h
      have hm := List.append_inj' h rfl
      have ha : a = n := by simpa using hm.2
      have hlen : m.length = n := by simpa using congrArg List.length hm.1
      subst ha
      rw [Memory.read_append, ih a hm.1, List.map_append, List.getElem?_append]
      by_cases hk : k < a
      · simp [hlen, hk]
      · rw [List.getElem?_eq_none (by simp [hlen]; omega), if_neg (by simpa [hlen] using hk)]
        simp only [Memory.read, List.length_map, hlen, Option.none_or]
        by_cases hak : a = k
        · subst hak; simp
        · simp [hak]
          omega

/-- Looking up every index of a list gives the list. -/
theorem filterMap_range_getElem? (bs : List Byte) :
    (List.range bs.length).filterMap (fun k => bs[k]?) = bs := by
  induction bs using List.reverseRecOn with
  | nil => rfl
  | append_singleton bs b ih =>
    rw [List.length_append, List.length_singleton, List.range_succ, List.filterMap_append]
    have hpre : (List.range bs.length).filterMap (fun k => (bs ++ [b])[k]?) = bs := by
      conv_rhs => rw [← ih]
      apply List.filterMap_congr
      intro k hk
      rw [List.getElem?_append_left (List.mem_range.mp hk)]
    rw [hpre]
    simp

/-- The payload of a state whose buffer lists exactly `0 .. LEN-1`: the bytes of its cells. -/
theorem State.payload_eq (s : State) (h : s.d.map Prod.fst = List.range s.len.toNat) :
    s.payload = s.d.map Prod.snd := by
  have hl : (s.d.map Prod.snd).length = s.len.toNat := by simpa using congrArg List.length h
  have hread : Memory.read s.d = fun k => (s.d.map Prod.snd)[k]? :=
    funext fun k => Memory.read_of_range s.d _ h k
  rw [State.payload, hread, ← hl, filterMap_range_getElem?]

end Sys2Proof.Machine
end

