-- ==== Sys2Proof/Laws/Ops.lean ====
section
/-! SUPPORT. What each shared operation can do, said once: the dispatch of a command, the operations that may fault, and the
step of the machine. -/

namespace Sys2Proof.Machine

/-- Everything the dispatch rule can do with a command. -/
theorem accept_cases (l : Legality) (f : State → Result) (s : State) (r : Result) (h : accept l f s = r) :
    (s.phase.autonomous = true ∧ r = .next s) ∨
    (s.phase.autonomous = false ∧ s.err ≠ .none ∧ l ≠ .always ∧ r = .next s) ∨
    (s.phase.autonomous = false ∧ s.err = .none ∧ s.phase.waiting = true ∧ l = .idleOnly ∧
      r = .next (s.raise .badSequence)) ∨
    (s.phase.autonomous = false ∧ (s.err = .none ∨ l = .always) ∧
      (s.phase.waiting = false ∨ l ≠ .idleOnly ∨ s.err ≠ .none) ∧ r = f s) := by
  subst h
  unfold accept
  by_cases ha : s.phase.autonomous = true
  · simp [ha]
  · by_cases he : s.err = .none
    · by_cases hw : s.phase.waiting = true ∧ l = .idleOnly
      · simp_all
      · simp only [Bool.not_eq_true] at ha
        simp only [ha, he, hw, Bool.false_eq_true, if_false, ne_eq, not_true_eq_false]
        refine .inr (.inr (.inr ⟨trivial, .inl trivial, ?_, trivial⟩))
        by_cases hl : l = .idleOnly
        · exact .inl (by simpa using fun h => hw ⟨h, hl⟩)
        · exact .inr (.inl hl)
    · by_cases hl : l = .always <;> simp_all

theorem accept_ready (l : Legality) (f : State → Result) (s : State) (hp : s.phase = .idle) (he : s.err = .none) :
    accept l f s = f s := by
  simp [accept, hp, he, Phase.autonomous, Phase.waiting]

/-- The byte the continuation of `withFieldByte` runs with. -/
theorem withFieldByte_next (field : List Byte) (s u : State) (k : Byte → Result)
    (h : withFieldByte field s k = .next u) : ∃ b, field[s.idx.toNat]? = some b ∧ k b = .next u := by
  unfold withFieldByte at h
  split at h
  · next b hb => exact ⟨b, hb, h⟩
  · cases h

/-- The index the continuation of `withTypeIndex` runs with. -/
theorem withTypeIndex_next (s u : State) (k : Fin 4 → Result) (h : withTypeIndex s k = .next u) :
    ∃ i : Fin 4, i.val = s.idx.toNat ∧ k i = .next u := by
  unfold withTypeIndex at h
  split at h
  · next hi => exact ⟨⟨_, hi⟩, rfl, h⟩
  · cases h

/-- The byte the continuation of `withBufferByte` runs with. -/
theorem withBufferByte_next (s u : State) (k : Byte → Result) (h : withBufferByte s k = .next u) :
    ∃ b, s.readBuffer s.idx = some b ∧ k b = .next u := by
  unfold withBufferByte at h
  split at h
  · next b hb => exact ⟨b, hb, h⟩
  · cases h

/-- The continuation of `withAppended` runs only below the capacity. -/
theorem withAppended_next (s u : State) (v : Byte) (k : State → Result) (h : withAppended s v k = .next u) :
    s.len < s.dataMax ∧ k (s.appendByte v) = .next u := by
  unfold withAppended at h
  split at h
  · next hl => exact ⟨hl, h⟩
  · cases h

/-- Everything a step can be: a reset step, a sequencer step, a wait for the host, or a command step. -/
theorem step_cases (s : State) (r : Result) (h : step s = r) :
    (∃ w rs, s.rst = .asserted w :: rs ∧ r = .next (resetStep w { s with rst := rs })) ∨
    ((∀ w rs, s.rst ≠ .asserted w :: rs) ∧
      ((s.phase.autonomous = true ∧ r = seqStep { s with rst := s.rst.tail }) ∨
       (s.phase.autonomous = false ∧ s.words = [] ∧ r = .next { s with rst := s.rst.tail }) ∨
       (∃ w ws, s.phase.autonomous = false ∧ s.words = w :: ws ∧
         r = cmdStep w { s with words := ws, rst := s.rst.tail }))) := by
  subst h
  obtain ⟨t, c, len, d, rxlen, rxcrc, phase, idx, err, dataMax, out, words, rst⟩ := s
  rcases rst with _ | ⟨_ | w, rs⟩
  · refine .inr ⟨by simp, ?_⟩
    cases ha : phase.autonomous <;> cases words <;> simp [step, cycle, runStep, ha]
  · refine .inr ⟨by simp, ?_⟩
    cases ha : phase.autonomous <;> cases words <;> simp [step, cycle, runStep, ha]
  · exact .inl ⟨w, rs, rfl, rfl⟩

end Sys2Proof.Machine
end

