-- ==== Sys2Proof/Laws/PerInstr.lean ====
section
/-! SUPPORT. A fact about every command as syntax: its word is well-formed, agrees with the fields of `Instr.raw`, and matches
the row of the opcode table that bears its mnemonic (30_encoding.md R72). -/

namespace Sys2Proof.Laws

/-- The command's word has the fields `Instr.raw` gives, those fields pass both checks, and some row of the opcode table with
the command's mnemonic matches the word. -/
def TableRow.Statement (i : Instr) : Prop :=
  i.wellFormed = true ∧ opField (encode i) = i.raw.op ∧ immField (encode i) = i.raw.imm8 ∧
    ∃ r ∈ opcodeTable, r.mnemonic = i.mnemonic ∧ (encode i &&& r.mask) = r.matchWord

/-- The two fields of a word put together from two bytes. -/
theorem fields_append (op b : Byte) : opField (op ++ b) = op ∧ immField (op ++ b) = b := by
  constructor <;> apply BitVec.eq_of_getLsbD_eq <;> intro k hk
  · rw [opField, BitVec.getLsbD_extractLsb', BitVec.getLsbD_append]
    simp [hk]
  · rw [immField, BitVec.getLsbD_extractLsb', BitVec.getLsbD_append]
    simp [hk]

/-- A word put together from two bytes, masked for format B, keeps its opcode alone. -/
theorem append_and_mask (op b : Byte) : (op ++ b) &&& 0xFF00#16 = op ++ 0x00#8 := by
  apply BitVec.eq_of_getLsbD_eq
  intro k hk
  have hmask : ∀ j : Fin 16, (0xFF00#16).getLsbD j.val = decide (8 ≤ j.val) := by decide
  rw [BitVec.getLsbD_and, BitVec.getLsbD_append, BitVec.getLsbD_append, hmask ⟨k, hk⟩]
  by_cases h : k < 8
  · simp [h]
  · simp [h]; omega

theorem wellFormed_formatB (op b : Byte) (h : op ∈ opcodesB) : RawCommand.wellFormed ⟨op, b⟩ = true := by
  simp [RawCommand.wellFormed, RawCommand.opcodeListed, RawCommand.operandAllowed, formatOf, h]

theorem TableRow.nop : TableRow.Statement .nop := by
  refine ⟨by decide, by decide, by decide, ⟨"NOP", .z, 0xFFFF#16, 0x0000#16⟩, by decide, rfl, by decide⟩
theorem TableRow.eclr : TableRow.Statement .eclr := by
  refine ⟨by decide, by decide, by decide, ⟨"ECLR", .z, 0xFFFF#16, 0x0100#16⟩, by decide, rfl, by decide⟩
theorem TableRow.srst : TableRow.Statement .srst := by
  refine ⟨by decide, by decide, by decide, ⟨"SRST", .z, 0xFFFF#16, 0x0200#16⟩, by decide, rfl, by decide⟩
theorem TableRow.cinit : TableRow.Statement .cinit := by
  refine ⟨by decide, by decide, by decide, ⟨"CINIT", .z, 0xFFFF#16, 0x1000#16⟩, by decide, rfl, by decide⟩
theorem TableRow.cupd (b : Byte) : TableRow.Statement (.cupd b) :=
  ⟨wellFormed_formatB _ b (by decide), (fields_append _ b).1, (fields_append _ b).2,
    ⟨"CUPD", .b, 0xFF00#16, 0x1100#16⟩, by decide, rfl, append_and_mask _ b⟩
theorem TableRow.ccalc : TableRow.Statement .ccalc := by
  refine ⟨by decide, by decide, by decide, ⟨"CCALC", .z, 0xFFFF#16, 0x1200#16⟩, by decide, rfl, by decide⟩
theorem TableRow.ldt0 (b : Byte) : TableRow.Statement (.ldt0 b) :=
  ⟨wellFormed_formatB _ b (by decide), (fields_append _ b).1, (fields_append _ b).2,
    ⟨"LDT0", .b, 0xFF00#16, 0x2000#16⟩, by decide, rfl, append_and_mask _ b⟩
theorem TableRow.ldt1 (b : Byte) : TableRow.Statement (.ldt1 b) :=
  ⟨wellFormed_formatB _ b (by decide), (fields_append _ b).1, (fields_append _ b).2,
    ⟨"LDT1", .b, 0xFF00#16, 0x2100#16⟩, by decide, rfl, append_and_mask _ b⟩
theorem TableRow.ldt2 (b : Byte) : TableRow.Statement (.ldt2 b) :=
  ⟨wellFormed_formatB _ b (by decide), (fields_append _ b).1, (fields_append _ b).2,
    ⟨"LDT2", .b, 0xFF00#16, 0x2200#16⟩, by decide, rfl, append_and_mask _ b⟩
theorem TableRow.ldt3 (b : Byte) : TableRow.Statement (.ldt3 b) :=
  ⟨wellFormed_formatB _ b (by decide), (fields_append _ b).1, (fields_append _ b).2,
    ⟨"LDT3", .b, 0xFF00#16, 0x2300#16⟩, by decide, rfl, append_and_mask _ b⟩
theorem TableRow.dclr : TableRow.Statement .dclr := by
  refine ⟨by decide, by decide, by decide, ⟨"DCLR", .z, 0xFFFF#16, 0x2800#16⟩, by decide, rfl, by decide⟩
theorem TableRow.dpush (b : Byte) : TableRow.Statement (.dpush b) :=
  ⟨wellFormed_formatB _ b (by decide), (fields_append _ b).1, (fields_append _ b).2,
    ⟨"DPUSH", .b, 0xFF00#16, 0x2900#16⟩, by decide, rfl, append_and_mask _ b⟩
theorem TableRow.sig : TableRow.Statement .sig := by
  refine ⟨by decide, by decide, by decide, ⟨"SIG", .z, 0xFFFF#16, 0x3000#16⟩, by decide, rfl, by decide⟩
theorem TableRow.emit : TableRow.Statement .emit := by
  refine ⟨by decide, by decide, by decide, ⟨"EMIT", .z, 0xFFFF#16, 0x3100#16⟩, by decide, rfl, by decide⟩
theorem TableRow.rxsig : TableRow.Statement .rxsig := by
  refine ⟨by decide, by decide, by decide, ⟨"RXSIG", .z, 0xFFFF#16, 0x4000#16⟩, by decide, rfl, by decide⟩
theorem TableRow.rxchunk : TableRow.Statement .rxchunk := by
  refine ⟨by decide, by decide, by decide, ⟨"RXCHUNK", .z, 0xFFFF#16, 0x4100#16⟩, by decide, rfl, by decide⟩
theorem TableRow.rxb (b : Byte) : TableRow.Statement (.rxb b) :=
  ⟨wellFormed_formatB _ b (by decide), (fields_append _ b).1, (fields_append _ b).2,
    ⟨"RXB", .b, 0xFF00#16, 0x4200#16⟩, by decide, rfl, append_and_mask _ b⟩
theorem TableRow.rxeof : TableRow.Statement .rxeof := by
  refine ⟨by decide, by decide, by decide, ⟨"RXEOF", .z, 0xFFFF#16, 0x4300#16⟩, by decide, rfl, by decide⟩

end Sys2Proof.Laws
end

