-- ==== Sys2Proof/Tests/Slice0.lean ====
section
/-! SUPPORT. The model's own tests: words written out from the encoding tables, ill-formed fields and lines refused, one or two
steps per command with results taken from spec/95_test_vectors.md and the rules named, and for every statement with
hypotheses a witness of each clause. -/

namespace Sys2Proof.Tests

open Sys2Proof Sys2Proof.Machine

/-- The state an outcome holds, if it is a next state. -/
def next? (r : Result) : Option State :=
  match r with
  | .next s => some s
  | .fault _ => none
  | .refused _ => none

theorem eq_of_next? (r : Result) (u : State) (h : next? r = some u) : r = .next u := by
  cases r <;> simp_all [next?]

/-- The reset state with capacity `n`. -/
def cap (n : Word) : State := State.resetWith n

/-- The chunk `tEXt` / `hi` loaded (95, V-FR-1), capacity 4. -/
def hi : State :=
  { cap 4#32 with
    t := ⟨0x74#8, 0x45#8, 0x58#8, 0x74#8⟩, len := 2#32, d := [(0, 0x68#8), (1, 0x69#8)] }

/-- `hi` at a position of the sequencer. -/
def pos (p : Phase) (i : Word) : State := { hi with phase := p, idx := i }

/-- `hi` with an error latched. -/
def bad : State := { hi with err := .crcMismatch }

/-! ### Decoding: words written out bit by bit, one of each command (95 section 2.6, `imm8 = 0xA5`) -/

theorem test_decode_control :
    decode 0b0000000000000000#16 = .command .nop ∧ decode 0b0000000100000000#16 = .command .eclr ∧
    decode 0b0000001000000000#16 = .command .srst := by decide

theorem test_decode_crc :
    decode 0b0001000000000000#16 = .command .cinit ∧ decode 0b0001000110100101#16 = .command (.cupd 0xA5#8) ∧
    decode 0b0001001000000000#16 = .command .ccalc := by decide

theorem test_decode_type :
    decode 0b0010000010100101#16 = .command (.ldt0 0xA5#8) ∧ decode 0b0010000110100101#16 = .command (.ldt1 0xA5#8) ∧
    decode 0b0010001010100101#16 = .command (.ldt2 0xA5#8) ∧
    decode 0b0010001110100101#16 = .command (.ldt3 0xA5#8) := by decide

theorem test_decode_buffer :
    decode 0b0010100000000000#16 = .command .dclr ∧ decode 0b0010100110100101#16 = .command (.dpush 0xA5#8) := by decide

theorem test_decode_framer :
    decode 0b0011000000000000#16 = .command .sig ∧ decode 0b0011000100000000#16 = .command .emit := by decide

theorem test_decode_deframer :
    decode 0b0100000000000000#16 = .command .rxsig ∧ decode 0b0100000100000000#16 = .command .rxchunk ∧
    decode 0b0100001010100101#16 = .command (.rxb 0xA5#8) ∧ decode 0b0100001100000000#16 = .command .rxeof := by decide

/-- V-CTL-21 to V-CTL-24. -/
theorem test_decode_reserved :
    decode 0x5000#16 = .reserved (.unknownOpcode 0x50#8) ∧ decode 0x0001#16 = .reserved (.operandNotZero 0x00#8 0x01#8) ∧
    decode 0x3101#16 = .reserved (.operandNotZero 0x31#8 0x01#8) ∧
    decode 0x0300#16 = .reserved (.unknownOpcode 0x03#8) ∧ decode 0x2400#16 = .reserved (.unknownOpcode 0x24#8) := by decide

theorem test_decodeTableWord :
    decodeTableWord 16 0x29FF = some (.dpush 0xFF#8) ∧ decodeTableWord 16 0x3101 = none ∧
    decodeTableWord 32 0x0000 = none := by decide

theorem test_withFetchWord_runs_it :
    (next? (step (State.reset.withFetchWord 16 0x3100))).map (fun s => (s.phase, s.c, s.words))
      = some (.txLen, 0xFFFFFFFF#32, []) := by decide

theorem test_withFetchWord_leaves_autonomous_phase_and_reset :
    (next? (step ({ pos .txData 1#32 with rst := [.asserted true] }.withFetchWord 16 0x1000))).map
      (fun s => (s.phase, s.c, s.rst, s.words)) = some (.idle, 0xFFFFFFFF#32, [], []) := by decide

/-! ### Well-formedness: an ill-formed term for each check -/

theorem test_wf_opcode_not_listed : RawCommand.opcodeListed ⟨0x50#8, 0x00#8⟩ = false := by decide
theorem test_wf_operand_not_zero : RawCommand.operandAllowed ⟨0x31#8, 0x01#8⟩ = false := by decide
theorem test_wf_refuses :
    RawCommand.wellFormed ⟨0x50#8, 0x00#8⟩ = false ∧ RawCommand.wellFormed ⟨0x31#8, 0x01#8⟩ = false ∧
    RawCommand.wellFormed ⟨0x42#8, 0xFF#8⟩ = true ∧ Instr.wellFormed (.rxb 0xFF#8) = true := by decide
/-- S4: a tag that is not 4 bytes is rejected. -/
theorem test_wf_tag_length :
    Source.wellFormed (.ldt [0x31#8, 0x32#8]) = false ∧ Source.wellFormed (.chunk [0x31#8] []) = false ∧
    (assemble [.ldt [0x31#8, 0x32#8]]).isNone ∧ (assemble [.chunk [0x31#8] []]).isNone := by decide
theorem test_config_range : Config.legalDataMax Config.dataMax = true ∧ Config.legalDataMax 0#32 = false := by decide
theorem test_memory_not_canonical :
    Memory.wf [(1, 0#8), (0, 0#8)] = false ∧ Memory.wf [(0, 0#8), (0, 1#8)] = false ∧ Memory.wf hi.d = true := by decide

/-! ### Assembler (R90, R91) -/

/-- R90's example `CUPD '1'`; R91's `CHUNK` (V-FR-1's words); a comment. -/
theorem test_assemble_text :
    assembleText ["CUPD '1' ; c".toList, "".toList] = some [0x1131#16] ∧
    assembleText ["CHUNK \"tEXt\", \"hi\"".toList] =
      some [0x2074#16, 0x2145#16, 0x2258#16, 0x2374#16, 0x2800#16, 0x2968#16, 0x2969#16, 0x3100#16] := by decide +kernel

theorem test_assemble_text_rejects :
    (assembleText ["CUPD 256".toList]).isNone ∧ (assembleText ["NOP 1".toList]).isNone ∧
    (assembleText ["LDT \"12\"".toList]).isNone ∧ (assembleText ["CUPD".toList]).isNone := by decide +kernel

/-- V-FS-9, V-CRC-32 and V-FR-1 as the spec writes them, `;`-separated (92 D23); a `;` in quotes separates nothing. -/
theorem test_assemble_separated :
    assembleText ["SIG; SIG".toList] = some [0x3000#16, 0x3000#16] ∧
    assembleText ["CINIT; CUPD '1'; CINIT; CUPD ';'".toList] = some [0x1000#16, 0x1131#16, 0x1000#16, 0x113B#16] ∧
    assembleText ["LDT \"tEXt\"; DLOAD \"h;\"; EMIT".toList] =
      some [0x2074#16, 0x2145#16, 0x2258#16, 0x2374#16, 0x2800#16, 0x2968#16, 0x293B#16, 0x3100#16] := by decide +kernel

/-- Log entry 8: after a command's `;` a tag that is not 4 bytes rejects the program (R91), an operand out of range makes the
text a comment. -/
theorem test_assemble_fault_after_separator :
    (assembleText ["SIG; LDT 1".toList]).isNone ∧ (assembleText ["NOP ; LDT".toList]).isNone ∧
    (assembleText ["NOP ; CHUNK \"abc\"".toList]).isNone ∧
    assembleText ["SIG; CUPD 256".toList] = some [0x3000#16] := by decide +kernel

/-- R90: a comment runs to the end of the line: P4's and P1's comments, one with a quote in it and a command after a further
`;`, a line that is only a comment, and a trailing `;`. -/
theorem test_assemble_comments :
    assembleText ["RXEOF   ; end of input between chunks: no effect".toList,
      "CRCOF \"1\"  ; = CINIT, CUPD '1' ... CUPD '9'".toList, "NOP ; it's dropped; SIG".toList, "; SIG".toList,
      "ECLR;".toList] = some [0x4300#16, 0x1000#16, 0x1131#16, 0x0000#16, 0x0100#16] := by decide +kernel

/-- R91: a string holds ASCII characters, a tab and 0x7F among them; a character above 0x7F rejects the line. `DLOAD ""` is
`DCLR` alone; no operand at all reads the same (log entry 8). -/
theorem test_assemble_strings :
    assembleText [['C', 'R', 'C', 'O', 'F', ' ', '"', '\t', Char.ofNat 0x7F, '"']] = some [0x1000#16, 0x1109#16, 0x117F#16] ∧
    (assembleText [['C', 'R', 'C', 'O', 'F', ' ', '"', Char.ofNat 0x80, '"']]).isNone ∧
    assembleText ["DLOAD \"\"".toList, "DLOAD".toList] = some [0x2800#16, 0x2800#16] := by decide +kernel

/-- P4's byte list, in the bare form of R8. -/
theorem test_assemble_rxbytes :
    assembleText ["RXBYTES 89 50 0x4E".toList] = some [0x4289#16, 0x4250#16, 0x424E#16] := by decide +kernel

/-! ### CRC values and reference functions (95 sections 2.2, 2.3) -/

/-- V-CRC-24, V-CRC-25, V-CRC-26. -/
theorem test_crcUpd :
    crcUpd 0xFFFFFFFF#32 0x31#8 = 0x7C231048#32 ∧ crcUpd 0x12345678#32 0x5A#8 = 0xD57275B2#32 ∧
    crcUpd 0x9ABCDEF0#32 0xC3#8 = 0xBF4ADDC8#32 := by decide +kernel
/-- V-CRC-5, V-CRC-13. -/
theorem test_crc32 :
    crc32 [0x31#8, 0x32#8, 0x33#8, 0x34#8, 0x35#8, 0x36#8, 0x37#8, 0x38#8, 0x39#8] = 0xCBF43926#32 ∧
    crc32 (hi.t.bytes ++ hi.payload) = 0x7569E6DF#32 := by decide +kernel
/-- V-FR-1, V-FR-4. -/
theorem test_frame :
    frame hi.t.bytes hi.payload = [0x00#8, 0x00#8, 0x00#8, 0x02#8, 0x74#8, 0x45#8, 0x58#8, 0x74#8, 0x68#8, 0x69#8,
      0x75#8, 0x69#8, 0xE6#8, 0xDF#8] ∧
    frame [0#8, 0#8, 0#8, 0#8] [] = [0#8, 0#8, 0#8, 0#8, 0#8, 0#8, 0#8, 0#8, 0x21#8, 0x44#8, 0xDF#8, 0x1C#8] := by
  decide +kernel
/-- R164: truncated input, and the corrupt frame of V-DF-4. -/
theorem test_parseChunk :
    parseChunk [0x00#8, 0x00#8] = .fail (.crcf .unexpectedEof) ∧
    parseChunk ((frame hi.t.bytes hi.payload).take 13) = .fail (.crcf .unexpectedEof) ∧
    parseChunk ((frame hi.t.bytes hi.payload).set 8 0x69#8) = .fail (.crcf .crcMismatch) ∧
    parseChunk (frame hi.t.bytes hi.payload ++ [0xAA#8]) = .ok (hi.chunk, [0xAA#8]) := by decide +kernel
/-- R15, R233: the host's words are held while a frame is being sent, and none is lost: the frame ends, then the file is parsed
(R225), or its signature refused. -/
theorem test_host_waits :
    (match hostParsePng (Png.bytes [hi.chunk]) { pos .txCrc 2#32 with out := [] } with
      | .next (u, p) => some (u.out, u.err, p)
      | _ => none) = some ([0x00#8, 0x00#8], .none, [hi.chunk]) ∧
    (match hostParsePng [0x88#8] (pos .ccData 0#32) with
      | .next (u, p) => some (u.err, p)
      | _ => none) = some (.invalidSignature, []) := by decide +kernel
/-- R226: first match; `ChunkNotFound`; no answer for a tag with a byte at or above 0x80. -/
theorem test_remove :
    Png.remove [⟨hi.t, [1#8]⟩, ⟨hi.t, [2#8]⟩] hi.t.bytes = some (.ok (⟨hi.t, [1#8]⟩, [⟨hi.t, [2#8]⟩])) ∧
    Png.remove [⟨hi.t, [1#8]⟩] [0x41#8, 0x41#8, 0x41#8, 0x41#8] = some (.fail .chunkNotFound) ∧
    Png.remove [⟨⟨0xFF#8, 0#8, 0#8, 0#8⟩, []⟩] hi.t.bytes = none := by decide
/-- R228, R229. -/
theorem test_text :
    typeFromString [0x31#8, 0x32#8] = .fail .invalidFormat ∧ (⟨hi.t, [0xC3#8, 0xA9#8]⟩ : Chunk).dataAsString = .ok [0xE9] ∧
    (⟨hi.t, [0xC0#8, 0x80#8]⟩ : Chunk).dataAsString = .fail .utf8Error ∧
    HostErr.code .utf8Error = 2#4 := by decide

/-! ### The read port and the flags -/

/-- V-CT-1, V-CT-2, V-CT-4, V-CT-7, V-CT-8: `STATUS` for `IHDR`, `RuSt`, `Ru1t`, `Rust`, `@[AZ`. -/
theorem test_status :
    ({ hi with t := ⟨0x49#8, 0x48#8, 0x44#8, 0x52#8⟩ } : State).readWord 0 = 0x00002700#32 ∧
    ({ hi with t := ⟨0x52#8, 0x75#8, 0x53#8, 0x74#8⟩ } : State).readWord 0 = 0x00003D00#32 ∧
    ({ hi with t := ⟨0x52#8, 0x75#8, 0x31#8, 0x74#8⟩ } : State).readWord 0 = 0x00001900#32 ∧
    ({ hi with t := ⟨0x52#8, 0x75#8, 0x73#8, 0x74#8⟩ } : State).readWord 0 = 0x00001900#32 ∧
    ({ hi with t := ⟨0x40#8, 0x5B#8, 0x41#8, 0x5A#8⟩ } : State).readWord 0 = 0x00000700#32 := by decide
/-- V-CRC-33's trace: `STATUS = 0x00002E60` in `CC_TYPE`; V-DF-3: `0x00002E04`. -/
theorem test_status_phase_and_error :
    (pos .ccType 0#32).readWord 0 = 0x00002E60#32 ∧ bad.readWord 0 = 0x00002E04#32 ∧
    hi.readWord 1 = 0x74455874#32 ∧ hi.readWord 8 = 4#32 ∧ hi.readWord 9 = 0#32 := by decide
/-- V-FR-8: the buffer port below and at `LEN`. -/
theorem test_buffer_port :
    hi.readBuffer 0#32 = some 0x68#8 ∧ hi.readBuffer 1#32 = some 0x69#8 ∧ hi.readBuffer 2#32 = none := by decide
/-- R16: a stuck run and a faulted one (V-FS-8, V-CTL-25). -/
theorem test_run_ends :
    (pos .rxSig 5#32).stuckWaiting = true ∧ bad.faulted = true ∧ hi.clean = true ∧ (pos .txLen 0#32).over = false := by decide

/-! ### One step of each command -/

/-- R200: a waiting parse is not disturbed (V-DF-19). -/
theorem test_nop : next? (exec .nop (pos .rxLen 1#32)) = some (pos .rxLen 1#32) := by decide
/-- R201: the latch clears, the datapath stays. -/
theorem test_eclr : next? (exec .eclr bad) = some hi := by decide
/-- R202, V-CTL-28; the capacity and `OUT` stay. -/
theorem test_srst : next? (exec .srst { bad with out := [7#8] }) = some { cap 4#32 with out := [7#8] } := by decide
/-- V-DF-20: `SRST` abandons a parse without an error. -/
theorem test_srst_in_parse : next? (exec .srst (pos .rxLen 1#32)) = some (cap 4#32) := by decide
/-- V-CRC-31. -/
theorem test_cinit : (next? (exec .cinit { hi with c := 0x340BC6D9#32 })).map State.c = some 0xFFFFFFFF#32 := by decide
/-- V-CRC-30. -/
theorem test_cupd : (next? (exec (.cupd 0x31#8) (cap 4#32))).map (fun s => s.readWord 3) = some 0x83DCEFB7#32 := by
  decide +kernel
/-- R126: the command step seeds and starts `CC_TYPE`. -/
theorem test_ccalc : (next? (exec .ccalc { hi with c := 5#32 })).map (fun s => (s.c, s.phase, s.idx)) =
    some (0xFFFFFFFF#32, .ccType, 0#32) := by decide
/-- V-CRC-33's trace, steps 4 and 6: the last type byte, the last payload byte. -/
theorem test_cc_steps :
    (next? (seqStep { pos .ccType 3#32 with c := 0xBBF884E7#32 })).map (fun s => (s.c, s.phase, s.idx, s.out)) =
      some (0x69BD3A7A#32, .ccData, 0#32, []) ∧
    (next? (seqStep { pos .ccData 1#32 with c := 0xF3D0CC72#32 })).map (fun s => (s.c, s.phase, s.idx, s.out)) =
      some (0x8A961920#32, .idle, 0#32, []) := by decide +kernel
/-- R100. -/
theorem test_ldt0 : (next? (exec (.ldt0 0x69#8) hi)).map (fun s => (s.t.bytes, s.c)) =
    some ([0x69#8, 0x45#8, 0x58#8, 0x74#8], hi.c) := by decide
/-- R101. -/
theorem test_ldt1 : (next? (exec (.ldt1 0xFF#8) hi)).map (fun s => s.t.bytes) = some [0x74#8, 0xFF#8, 0x58#8, 0x74#8] := by
  decide
/-- R102. -/
theorem test_ldt2 : (next? (exec (.ldt2 0x00#8) hi)).map (fun s => s.t.bytes) = some [0x74#8, 0x45#8, 0x00#8, 0x74#8] := by
  decide
/-- R103. -/
theorem test_ldt3 : (next? (exec (.ldt3 0x52#8) hi)).map (fun s => s.t.bytes) = some [0x74#8, 0x45#8, 0x58#8, 0x52#8] := by
  decide
/-- R79: `BadSequence` in a waiting phase, nothing loaded. -/
theorem test_ldt_waiting : next? (exec (.ldt0 0x69#8) (pos .rxType 0#32)) = some { hi with err := .badSequence } := by decide
/-- V-FR-9. -/
theorem test_dclr : (next? (exec .dclr hi)).map (fun s => (s.len, s.d, s.readBuffer 0#32)) = some (0#32, [], none) := by decide
/-- V-FR-10: the fourth byte of a four-byte buffer fits. -/
theorem test_dpush : (next? (exec (.dpush 9#8) hi)).map (fun s => (s.len, s.d)) =
    some (3#32, [(0, 0x68#8), (1, 0x69#8), (2, 9#8)]) := by decide
/-- V-FR-11: `Overflow` at the capacity, the byte not stored. -/
theorem test_dpush_overflow : next? (exec (.dpush 5#8) { hi with dataMax := 2#32 }) =
    some { hi with dataMax := 2#32, err := .overflow } := by decide
/-- V-FS-1. -/
theorem test_sig : (next? (exec .sig hi)).map (fun s => (s.phase, s.idx, s.c)) = some (.txSig, 0#32, hi.c) := by decide
theorem test_sig_steps :
    (next? (seqStep (pos .txSig 0#32))).map (fun s => (s.out, s.phase, s.idx)) = some ([0x89#8], .txSig, 1#32) ∧
    (next? (seqStep (pos .txSig 7#32))).map (fun s => (s.out, s.phase, s.idx)) = some ([0x0A#8], .idle, 0#32) := by decide
/-- V-FR-1: the command step. -/
theorem test_emit : (next? (exec .emit { hi with c := 5#32 })).map (fun s => (s.c, s.phase, s.idx, s.out)) =
    some (0xFFFFFFFF#32, .txLen, 0#32, []) := by decide
/-- V-FR-1's trace, steps 4, 8, 10 and 11. -/
theorem test_emit_steps :
    (next? (seqStep (pos .txLen 3#32))).map (fun s => (s.out, s.c, s.phase)) = some ([0x02#8], hi.c, .txType) ∧
    (next? (seqStep { pos .txType 3#32 with c := 0xBBF884E7#32 })).map (fun s => (s.out, s.c, s.phase)) =
      some ([0x74#8], 0x69BD3A7A#32, .txData) ∧
    (next? (seqStep { pos .txData 1#32 with c := 0xF3D0CC72#32 })).map (fun s => (s.out, s.c, s.phase)) =
      some ([0x69#8], 0x8A961920#32, .txCrc) ∧
    (next? (seqStep { pos .txCrc 0#32 with c := 0x8A961920#32 })).map (fun s => (s.out, s.c, s.idx)) =
      some ([0x75#8], 0x8A961920#32, 1#32) := by decide +kernel
/-- R183. -/
theorem test_rxsig : next? (exec .rxsig hi) = some (pos .rxSig 0#32) := by decide
/-- V-DF-17. -/
theorem test_rxchunk : next? (exec .rxchunk hi) =
    some { pos .rxLen 0#32 with c := 0xFFFFFFFF#32, len := 0#32, d := [] } := by decide
/-- V-DF-21. -/
theorem test_rxchunk_waiting : (next? (exec .rxchunk (pos .rxLen 1#32))).map (fun s => (s.err, s.phase)) =
    some (.badSequence, .idle) := by decide
/-- V-FS-3, V-FS-5: the first and the last byte of the signature; V-CTL-31: `RXB` in `IDLE`. -/
theorem test_rxb_errors :
    (next? (exec (.rxb 0x88#8) (pos .rxSig 0#32))).map State.err = some .invalidSignature ∧
    (next? (exec (.rxb 0x0B#8) (pos .rxSig 7#32))).map State.err = some .invalidSignature ∧
    (next? (exec (.rxb 0x12#8) hi)).map State.err = some .badSequence ∧
    (next? (exec (.rxb 0x05#8) { cap 4#32 with phase := .rxLen, idx := 3#32 })).map (fun s => (s.err, s.rxlen)) =
      some (.overflow, 5#32) := by decide
/-- V-DF-1's trace, rows 4, 8, 10 and 14. -/
theorem test_rxb_steps :
    (next? (exec (.rxb 0x02#8) { cap 4#32 with phase := .rxLen, idx := 3#32 })).map (fun s => (s.rxlen, s.phase, s.idx)) =
      some (2#32, .rxType, 0#32) ∧
    (next? (exec (.rxb 0x74#8) { cap 4#32 with phase := .rxType, idx := 3#32, rxlen := 2#32, c := 0xBBF884E7#32 })).map
      (fun s => (s.t.b3, s.c, s.phase)) = some (0x74#8, 0x69BD3A7A#32, .rxData) ∧
    (next? (exec (.rxb 0x69#8) { cap 4#32 with
      phase := .rxData, idx := 1#32, len := 1#32, d := [(0, 0x68#8)], rxlen := 2#32, c := 0xF3D0CC72#32 })).map
      (fun s => (s.d, s.len, s.c, s.phase)) = some ([(0, 0x68#8), (1, 0x69#8)], 2#32, 0x8A961920#32, .rxCrc) ∧
    (next? (exec (.rxb 0xDF#8) { pos .rxCrc 3#32 with rxcrc := 0x007569E6#32, c := 0x8A961920#32 })).map
      (fun s => (s.rxcrc, s.err, s.phase)) = some (0x7569E6DF#32, .none, .idle) := by decide +kernel
/-- V-DF-10, V-FS-7, V-CTL-30. -/
theorem test_rxeof :
    (next? (exec .rxeof (pos .rxLen 0#32))).map State.err = some .unexpectedEof ∧
    (next? (exec .rxeof (pos .rxSig 0#32))).map State.err = some .invalidSignature ∧
    next? (exec .rxeof hi) = some hi := by decide

/-! ### One step of the machine -/

/-- V-DF-22: a reserved word in a parse; V-CTL-25: dropped while an error is latched. -/
theorem test_step_reserved :
    (next? (step { pos .rxLen 1#32 with words := [0x5000#16] })).map (fun s => (s.err, s.phase, s.words)) =
      some (.illegalCommand, .idle, []) ∧
    next? (step { bad with words := [0x5000#16] }) = some bad := by decide
/-- R15: a word is held while a frame is sent. -/
theorem test_step_holds :
    (next? (step { pos .txLen 0#32 with words := [0x0200#16] })).map (fun s => (s.words, s.out, s.idx)) =
      some ([0x0200#16], [0x00#8], 1#32) := by decide
/-- R303: reset in a frame keeps what was emitted; R290: the held word is offered again or withdrawn. -/
theorem test_step_reset :
    next? (step { pos .txType 2#32 with out := [0x74#8], words := [0x1000#16], rst := [.asserted false] }) =
      some { cap 4#32 with out := [0x74#8], words := [0x1000#16] } ∧
    (next? (step { pos .txType 2#32 with words := [0x1000#16], rst := [.asserted true] })).map State.words = some [] := by
  decide
theorem test_step_faults :
    (match step { pos .txData 2#32 with words := [] } with | .fault r => some r | _ => none)
      = some (.bufferByteAbsent 2) ∧
    (match step (pos .txCrc 4#32) with | .fault r => some r | _ => none) = some (.fieldByteAbsent .txCrc 4) ∧
    (match exec (.dpush 0#8) { hi with dataMax := 1#32 } with | .fault r => some r | _ => none)
      = some (.bufferAddressAbsent 2) := by decide

/-! ### Witnesses: for every statement with hypotheses, states and operands that meet them, at the ends of each clause -/

theorem hi_inv : hi.Inv :=
  ⟨by decide, by decide, (by decide : hi.idx = 0#32), by decide, trivial, by decide⟩

theorem cap_inv : (cap 1#32).Inv :=
  ⟨by decide, by decide, (by decide : (cap 1#32).idx = 0#32), by decide, trivial, by decide⟩

theorem witness_DecodeOfEncodeIsTheCommand : (Instr.rxb 0xFF#8).wellFormed = true := by decide
theorem witness_EncodeOfDecodeIsTheWord : decode 0x42FF#16 = .command (.rxb 0xFF#8) := by decide
theorem witness_WordsAreTheCommandsOfTheirRows :
    ∃ row ∈ opcodeTable, row.mnemonic = "RXEOF" ∧ 0x4300#16 &&& row.mask = row.matchWord ∧
      0x4301#16 &&& row.mask ≠ row.matchWord := by decide
theorem witness_AssembledWordsDecodeBack :
    assemble [.chunk [0x74#8, 0x45#8, 0x58#8, 0x74#8] [], .rxbytes [0x89#8]] =
      some [0x2074#16, 0x2145#16, 0x2258#16, 0x2374#16, 0x2800#16, 0x3100#16, 0x4289#16] := by decide

/-- In `IDLE`, in a waiting phase, and with an error latched. -/
theorem witness_StepRunsTheDecodedCommand :
    decode 0x4289#16 = .command (.rxb 0x89#8) ∧
    (∀ s ∈ [{ hi with words := [0x4289#16] }, { pos .rxSig 7#32 with words := [0x4289#16], rst := [.released] },
        { bad with words := [0x4289#16, 0#16] }],
      s.resetReleased = true ∧ s.phase.autonomous = false ∧ s.words ≠ [] ∧ s.words.head? = some 0x4289#16) := by decide

theorem witness_ReservedWordRaisesIllegalCommand :
    decode 0x3101#16 = .reserved (.operandNotZero 0x31#8 0x01#8) ∧
    (let s := { pos .rxCrc 3#32 with words := [0x3101#16] }
     s.resetReleased = true ∧ s.phase.autonomous = false ∧ s.err = .none) ∧
    (let s := { bad with words := [0x3101#16] }
     s.resetReleased = true ∧ s.phase.autonomous = false ∧ s.err ≠ .none) ∧
    (let s := { pos .txData 1#32 with words := [0x3101#16] }
     s.resetReleased = true ∧ s.phase.autonomous = true ∧ (next? (step s)).isSome) := by decide +kernel

theorem witness_AutonomousPhaseHoldsTheCommand :
    (pos .ccData 1#32).resetReleased = true ∧ (pos .ccData 1#32).phase.autonomous = true ∧
    (next? (step (pos .ccData 1#32))).isSome := by decide +kernel

theorem witness_MachineWaitsForTheHost :
    hi.resetReleased = true ∧ hi.phase.autonomous = false ∧ hi.words = [] ∧
    next? (step (pos .rxLen 2#32)) = some (pos .rxLen 2#32) := by decide

theorem witness_ResetStepIsTotal :
    ({ pos .txCrc 3#32 with rst := [.asserted false, .released] } : State).rst = .asserted false :: [.released] ∧
    ({ bad with rst := [.asserted true] } : State).rst = .asserted true :: [] := by decide

theorem witness_SrstResetsEveryRegister :
    (pos .rxData 2#32).phase.autonomous = false ∧ bad.phase.autonomous = false := by decide

theorem witness_FaultedMachineDropsEveryWord :
    bad.resetReleased = true ∧ bad.phase.autonomous = false ∧ bad.err ≠ .none ∧
    (decode 0x0000#16 ≠ .command .eclr ∧ decode 0x0000#16 ≠ .command .srst) ∧
    (decode 0xFFFF#16 ≠ .command .eclr ∧ decode 0xFFFF#16 ≠ .command .srst) ∧
    decode 0x0100#16 = .command .eclr ∧ decode 0x0200#16 = .command .srst := by decide

/-- `hi` is ready; each waiting phase is a reception; `EMIT` and `SIG` are among the commands meant. -/
theorem witness_OutOfSequenceCommandsRaiseBadSequence :
    hi.Ready ∧ (∀ p ∈ [Phase.rxSig, .rxLen, .rxType, .rxData, .rxCrc], (pos p 0#32).Receiving) ∧
    (∀ i ∈ [Instr.emit, .sig, .dpush 0#8, .rxsig, .rxchunk],
      i ≠ .nop ∧ i ≠ .eclr ∧ i ≠ .srst ∧ i ≠ .rxeof ∧ ∀ b, i ≠ .rxb b) := by
  refine ⟨by decide, by decide, ?_⟩
  simp

theorem witness_NopAndEclrEffects : bad.phase.autonomous = false ∧ (pos .rxType 3#32).phase.autonomous = false := by decide
theorem witness_LoadTypeByteCommands : hi.Ready ∧ State.reset.Ready := by decide
theorem witness_CrcUnitCommands : hi.Ready ∧ hi.rst = [] := by decide

/-- Below the capacity (the last byte that fits, and the first), at it, above it. -/
theorem witness_BufferCommands :
    ({ hi with dataMax := 3#32 } : State).Ready ∧
    ({ hi with dataMax := 3#32 } : State).len < ({ hi with dataMax := 3#32 } : State).dataMax ∧
    (cap 1#32).Ready ∧ (cap 1#32).len < (cap 1#32).dataMax ∧
    ({ hi with dataMax := 2#32 } : State).len = ({ hi with dataMax := 2#32 } : State).dataMax ∧
    ({ hi with dataMax := 1#32 } : State).dataMax < ({ hi with dataMax := 1#32 } : State).len := by decide

theorem witness_ReceiveCommandsStartWaiting : hi.Ready ∧ State.reset.Ready := by decide

/-- Positions 0, 6 and 7, with the byte wanted and with another. -/
theorem witness_RxbInSignaturePhase :
    (∀ s ∈ [pos .rxSig 0#32, pos .rxSig 6#32, pos .rxSig 7#32], s.phase = .rxSig ∧ s.err = .none) ∧
    signature[(0#32 : Word).toNat]? = some 0x89#8 ∧ signature[(6#32 : Word).toNat]? = some 0x1A#8 ∧
    signature[(7#32 : Word).toNat]? = some 0x0A#8 ∧ (0x88#8 : Byte) ≠ 0x89#8 ∧
    (pos .rxSig 6#32).idx.toNat < 7 ∧ (pos .rxSig 7#32).idx.toNat = 7 := by decide

/-- The last of the first three bytes; the fourth with a length one above the capacity, and equal to it. -/
theorem witness_RxbInLengthPhase :
    (pos .rxLen 2#32).phase = .rxLen ∧ (pos .rxLen 2#32).err = .none ∧ (pos .rxLen 2#32).idx.toNat < 3 ∧
    (pos .rxLen 3#32).idx.toNat = 3 ∧
    (pos .rxLen 3#32).dataMax < ((pos .rxLen 3#32).rxlen <<< 8) ||| (5#8 : Byte).setWidth 32 ∧
    ((pos .rxLen 3#32).rxlen <<< 8) ||| (4#8 : Byte).setWidth 32 ≤ (pos .rxLen 3#32).dataMax := by decide

/-- The four positions; a declared length of 0 and a larger one at the last. -/
theorem witness_RxbInTypePhase :
    (∀ s ∈ [pos .rxType 0#32, pos .rxType 1#32, pos .rxType 2#32, pos .rxType 3#32], s.phase = .rxType ∧ s.err = .none) ∧
    (pos .rxType 0#32).idx = 0#32 ∧ (pos .rxType 1#32).idx = 1#32 ∧ (pos .rxType 2#32).idx = 2#32 ∧
    (pos .rxType 3#32).idx = 3#32 ∧
    (pos .rxType 3#32).rxlen = 0#32 ∧ ({ pos .rxType 3#32 with rxlen := 1#32 } : State).rxlen ≠ 0#32 := by decide

/-- The last byte and the last but one, the declared length at the capacity. -/
theorem witness_RxbInDataPhase :
    (let s := { pos .rxData 2#32 with rxlen := 3#32, dataMax := 3#32 }
     s.phase = .rxData ∧ s.err = .none ∧ s.idx = s.len ∧ s.len < s.rxlen ∧ s.rxlen ≤ s.dataMax ∧
       s.len.toNat + 1 = s.rxlen.toNat) ∧
    (let s := { pos .rxData 2#32 with rxlen := 4#32 }
     s.phase = .rxData ∧ s.err = .none ∧ s.idx = s.len ∧ s.len < s.rxlen ∧ s.rxlen ≤ s.dataMax ∧
       s.len.toNat + 1 < s.rxlen.toNat) := by decide

/-- The last of the first three bytes; the fourth with the crc the accumulator wants, and with another. -/
theorem witness_RxbInCrcPhase :
    (pos .rxCrc 2#32).phase = .rxCrc ∧ (pos .rxCrc 2#32).err = .none ∧ (pos .rxCrc 2#32).idx.toNat < 3 ∧
    (pos .rxCrc 3#32).idx.toNat = 3 ∧
    (((pos .rxCrc 3#32).rxcrc <<< 8) ||| (0x00#8 : Byte).setWidth 32) = (pos .rxCrc 3#32).c ^^^ 0xFFFFFFFF#32 ∧
    (((pos .rxCrc 3#32).rxcrc <<< 8) ||| (0x01#8 : Byte).setWidth 32) ≠ (pos .rxCrc 3#32).c ^^^ 0xFFFFFFFF#32 := by decide

theorem witness_RxeofByPhase :
    hi.Ready ∧ (pos .rxSig 0#32).phase = .rxSig ∧ (pos .rxSig 0#32).err = .none ∧
    (∀ p ∈ [Phase.rxLen, .rxType, .rxData, .rxCrc],
      (pos p 0#32).phase ∈ [Phase.rxLen, .rxType, .rxData, .rxCrc] ∧ (pos p 0#32).err = .none) := by decide

/-- Each field at its last byte and the one before it. -/
theorem witness_TransmitStepsMoveOneByte :
    (pos .txLen 3#32).phase = .txLen ∧ (be32 hi.len)[(3#32 : Word).toNat]? = some 2#8 ∧
    (be32 hi.len)[(2#32 : Word).toNat]? = some 0#8 ∧
    (pos .txType 3#32).phase = .txType ∧ hi.t.bytes[(3#32 : Word).toNat]? = some 0x74#8 ∧
    (pos .txData 1#32).phase = .txData ∧ (pos .txData 1#32).readBuffer 1#32 = some 0x69#8 ∧
    (pos .txData 0#32).readBuffer 0#32 = some 0x68#8 ∧
    (pos .txCrc 3#32).phase = .txCrc ∧ (be32 (hi.c ^^^ 0xFFFFFFFF#32))[(3#32 : Word).toNat]? = some 0#8 := by decide +kernel

theorem witness_CrcStepsFoldOneByte :
    (pos .ccType 3#32).phase = .ccType ∧ hi.t.bytes[(3#32 : Word).toNat]? = some 0x74#8 ∧
    hi.t.bytes[(2#32 : Word).toNat]? = some 0x58#8 ∧
    (pos .ccData 1#32).phase = .ccData ∧ (pos .ccData 1#32).readBuffer 1#32 = some 0x69#8 ∧
    (pos .ccData 0#32).readBuffer 0#32 = some 0x68#8 := by decide

/-- With a payload, and with none (the state after reset). -/
theorem witness_AutonomousPhasesEndOnTime :
    (hi.Inv ∧ hi.Ready ∧ hi.rst = [] ∧ exec .sig hi = .next (pos .txSig 0#32) ∧
      exec .emit hi = .next (pos .txLen 0#32) ∧ exec .ccalc hi = .next (pos .ccType 0#32)) ∧
    ((cap 1#32).Inv ∧ (cap 1#32).Ready ∧ (cap 1#32).rst = [] ∧ (cap 1#32).len.toNat = 0) :=
  ⟨⟨hi_inv, by decide, rfl, rfl, rfl, rfl⟩, cap_inv, by decide, rfl, rfl⟩

theorem witness_EmitSendsTheFrame : hi.Inv ∧ hi.Ready ∧ hi.rst = [] := ⟨hi_inv, by decide, rfl⟩
theorem witness_CcalcComputesTheChunkCrc : (cap 1#32).Inv ∧ (cap 1#32).Ready ∧ (cap 1#32).rst = [] :=
  ⟨cap_inv, by decide, rfl⟩
theorem witness_SigSendsTheSignature : hi.Inv ∧ hi.Ready ∧ hi.rst = [] := ⟨hi_inv, by decide, rfl⟩

/-- A payload of exactly the capacity, and none. -/
theorem witness_SuccessfulParseRebuildsTheChunk :
    hi.Ready ∧ [1#8, 2#8, 3#8, 4#8].length ≤ hi.dataMax.toNat ∧ ([] : List Byte).length ≤ hi.dataMax.toNat := by decide

/-- V-DF-1's frame parsed, then `EMIT`. -/
theorem witness_ParseThenEmitReproducesTheInput :
    ∃ u v w : State, (cap 4#32).Ready ∧ (cap 4#32).rst = [] ∧ exec .rxchunk (cap 4#32) = .next u ∧
      deliver [0#8, 0#8, 0#8, 2#8, 0x74#8, 0x45#8, 0x58#8, 0x74#8, 0x68#8, 0x69#8, 0x75#8, 0x69#8, 0xE6#8, 0xDF#8] u
        = .next v ∧ v.Ready ∧ exec .emit v = .next w := by
  refine ⟨_, { hi with c := 0x8A961920#32, rxlen := 2#32, rxcrc := 0x7569E6DF#32 }, _, by decide, rfl, rfl, ?_, by decide, rfl⟩
  exact eq_of_next? _ _ (by decide +kernel)

/-- The first type byte and the last payload byte changed; the last type byte where there is no payload. -/
theorem witness_ChangedByteGivesCrcMismatch :
    hi.Ready ∧ hi.payload.length ≤ hi.dataMax.toNat ∧
    (4 ≤ 4 ∧ 4 < 8 + hi.payload.length ∧ (frame hi.t.bytes hi.payload)[4]? ≠ some 0x75#8) ∧
    (4 ≤ 9 ∧ 9 < 8 + hi.payload.length ∧ (frame hi.t.bytes hi.payload)[9]? ≠ some 0x68#8) ∧
    (4 ≤ 7 ∧ 7 < 8 + ([] : List Byte).length ∧ (frame hi.t.bytes [])[7]? ≠ some 0x54#8) := by decide +kernel

/-- A whole frame with a byte after it (parsed), a truncated one (`UnexpectedEof`), no byte at all; from `IDLE`, and
from the last step of a frame. -/
theorem witness_HostParseAgreesWithParseChunk :
    hi.Inv ∧ hi.err = .none ∧ hi.phase.waiting = false ∧
    (pos .txCrc 3#32).Inv ∧ (pos .txCrc 3#32).err = .none ∧ (pos .txCrc 3#32).phase.waiting = false ∧
    (∀ bs ∈ [[0#8, 0#8, 0#8, 0#8, 0#8, 0#8, 0#8, 0#8, 0x21#8, 0x44#8, 0xDF#8, 0x1C#8, 0xAA#8], [0#8, 0#8, 0#8, 4#8], []],
      ∀ b0 b1 b2 b3 rest, bs = b0 :: b1 :: b2 :: b3 :: rest → fromBe32 b0 b1 b2 b3 ≤ hi.dataMax) ∧
    parseChunk [0#8, 0#8, 0#8, 0#8, 0#8, 0#8, 0#8, 0#8, 0x21#8, 0x44#8, 0xDF#8, 0x1C#8, 0xAA#8]
      = .ok (⟨⟨0#8, 0#8, 0#8, 0#8⟩, []⟩, [0xAA#8]) ∧
    parseChunk [0#8, 0#8, 0#8, 4#8] = .fail (.crcf .unexpectedEof) := by
  refine ⟨hi_inv, by decide, by decide,
    ⟨by decide, by decide, (by decide : (pos .txCrc 3#32).idx < 4#32), by decide, trivial, by decide⟩, by decide, by decide, ?_,
    by decide +kernel, by decide⟩
  intro bs hbs b0 b1 b2 b3 rest h
  simp only [List.mem_cons, List.not_mem_nil, or_false] at hbs
  rcases hbs with rfl | rfl | rfl
  · simp only [List.cons.injEq] at h
    obtain ⟨rfl, rfl, rfl, rfl, rfl⟩ := h
    decide
  · simp only [List.cons.injEq] at h
    obtain ⟨rfl, rfl, rfl, rfl, rfl⟩ := h
    decide
  · cases h

/-- The whole signature and more; a difference at the first and at the last byte; a signature of no byte and of seven. -/
theorem witness_SignatureCheckVerdict :
    hi.Ready ∧ (signature ++ [1#8]).take 8 = signature ∧
    (0 < 8 ∧ 0 < [0x88#8].length ∧ [0x88#8].take 0 = signature.take 0 ∧ [0x88#8][0]? ≠ signature[0]?) ∧
    (7 < 8 ∧ 7 < (signature.take 7 ++ [0x0B#8]).length ∧ (signature.take 7 ++ [0x0B#8]).take 7 = signature.take 7 ∧
      (signature.take 7 ++ [0x0B#8])[7]? ≠ signature[7]?) ∧
    (([] : List Byte).length < 8 ∧ ([] : List Byte) = signature.take ([] : List Byte).length) ∧
    ((signature.take 7).length < 8 ∧ signature.take 7 = signature.take (signature.take 7).length) := by decide

theorem witness_FileRoundTrip :
    ∀ c ∈ ([⟨hi.t, [0x68#8, 0x69#8]⟩, ⟨hi.t, []⟩] : Png), c.data.length < 2 ^ 32 := by decide

theorem witness_ResetSatisfiesTheInvariant : (1#32 : Word) ≠ 0#32 ∧ (0xFFFFFFFF#32 : Word) ≠ 0#32 := by decide

/-- A sequencer step and a command step from states with the invariant; the first has the consistent accumulator too. -/
theorem witness_EveryStepKeepsTheInvariant :
    (pos .txLen 3#32).Inv ∧ (next? (step (pos .txLen 3#32))).isSome ∧
    ({ pos .rxData 2#32 with rxlen := 3#32, words := [0x42FF#16] } : State).Inv ∧
    (next? (step { pos .rxData 2#32 with rxlen := 3#32, words := [0x42FF#16] })).isSome := by
  refine ⟨⟨by decide, by decide, (by decide : (pos .txLen 3#32).idx < 4#32), by decide, trivial, by decide⟩,
    by decide, ?_, by decide +kernel⟩
  exact ⟨by decide, by decide, (by decide : (2#32 : Word) = 2#32 ∧ (2#32 : Word) < 3#32), by decide,
    (by decide : (3#32 : Word) ≤ 4#32), by decide⟩

theorem witness_EveryStepKeepsTheCrcConsistent :
    (pos .txLen 3#32).Inv ∧ (pos .txLen 3#32).CrcTracks ∧ (next? (step (pos .txLen 3#32))).isSome :=
  ⟨witness_EveryStepKeepsTheInvariant.1, (by decide : (pos .txLen 3#32).c = crcRaw []), by decide⟩

/-- A state some steps after a reachable one is reachable. -/
theorem reachable_run (n : Nat) (s u : State) (hs : Reachable s) (h : Sys2Proof.core.run n s = .next u) : Reachable u := by
  induction n generalizing s with
  | zero => cases h; exact hs
  | succ n ih =>
    cases h' : step s with
    | next s' => exact ih s' (.step s s' hs h') (by simpa [Host.Core.run, Sys2Proof.core, h'] using h)
    | fault r => simp [Host.Core.run, Sys2Proof.core, h'] at h
    | refused r => simp [Host.Core.run, Sys2Proof.core, h'] at h

/-- The state `n` steps after reset of a block of capacity 4 whose host sends the commands `is`. -/
def after (n : Nat) (is : List Instr) : Option State :=
  next? (Sys2Proof.core.run n { cap 4#32 with words := is.map encode })

theorem reachable_after (n : Nat) (is : List Instr) (p : State → Bool) (h : (after n is).any p = true) :
    ∃ s, Reachable s ∧ p s = true := by
  cases hs : after n is with
  | none => simp [hs] at h
  | some s =>
    refine ⟨s, reachable_run n _ s (.host _ _ [] (.reset 4#32 (by decide))) (eq_of_next? _ _ hs), ?_⟩
    simpa [hs] using h

/-- An error latched, a payload being sent, being folded, being received, and the crc field of a parse: all reachable. -/
theorem witness_ReachableStatesSatisfyR41 :
    (∃ s, Reachable s ∧ decide (s.err ≠ .none) = true) ∧
    (∃ s, Reachable s ∧ decide (s.phase = .txData) = true) ∧ (∃ s, Reachable s ∧ decide (s.phase = .ccData) = true) ∧
    (∃ s, Reachable s ∧ decide (s.phase = .rxData ∧ 0#32 < s.len) = true) ∧
    (∃ s, Reachable s ∧ decide (s.phase = .rxCrc) = true) := by
  refine ⟨reachable_after 1 [.rxb 0#8] _ ?_, reachable_after 10 [.dpush 7#8, .emit] _ ?_,
    reachable_after 6 [.dpush 7#8, .ccalc] _ ?_,
    reachable_after 10 [.rxchunk, .rxb 0#8, .rxb 0#8, .rxb 0#8, .rxb 2#8, .rxb 0#8, .rxb 0#8, .rxb 0#8, .rxb 0#8, .rxb 9#8] _ ?_,
    reachable_after 9 [.rxchunk, .rxb 0#8, .rxb 0#8, .rxb 0#8, .rxb 0#8, .rxb 0#8, .rxb 0#8, .rxb 0#8, .rxb 0#8] _ ?_⟩ <;>
    decide +kernel

theorem witness_NoStepStopsTheMachine : hi.Inv := hi_inv

theorem witness_WhatCannotFail :
    (pos .txData 1#32).phase.autonomous = true ∧ (next? (seqStep (pos .txData 1#32))).isSome ∧ hi.Ready ∧
    Instr.rxchunk ∈ [Instr.nop, .eclr, .srst, .cinit, .ccalc, .dclr, .sig, .emit, .rxsig, .rxchunk] := by decide +kernel

theorem witness_CrcTableDrivenForm : 0 < 256 ∧ 255 < 256 := by decide
theorem witness_CrcDetectsOneChangedByte : (0x00#8 : Byte) ≠ 0x80#8 := by decide
theorem witness_ValidTypesAreLettersWithReservedBitClear : (⟨0x41#8, 0x5A#8, 0x5A#8, 0x7A#8⟩ : TypeReg).valid = true := by
  decide
/-- `LDT1` in `IDLE`, and the last type byte of a parse. -/
theorem witness_TypeGatesNoCommand :
    (next? (exec (.ldt1 0xFF#8) hi)).isSome ∧ (next? (exec (.rxb 0xFF#8) (pos .rxType 3#32))).isSome := by decide +kernel
theorem witness_ReadPortWordMap : 9 ≤ (9#4 : BitVec 4).toNat ∧ 9 ≤ (15#4 : BitVec 4).toNat := by decide
/-- The last byte of the payload, the first address that is refused, and the last. -/
theorem witness_BufferPortReadsThePayload :
    hi.Inv ∧ (1#32 : Word) < hi.len ∧ hi.len ≤ (2#32 : Word) ∧ hi.len ≤ (0xFFFFFFFF#32 : Word) :=
  ⟨hi_inv, by decide, by decide, by decide⟩

/-- `RXB` in `RX_DATA` writes `C` and the buffer and none of the other registers; `NOP` writes none; `ECLR`, and `DPUSH`
with and without a raise, move no position of their own. -/
theorem witness_CommandsWriteOnlyTheirRegisters :
    (next? (exec (.rxb 1#8) { pos .rxData 2#32 with rxlen := 3#32 })).isSome ∧
    writesT (.rxb 1#8) .rxData = false ∧ writesRxlen (.rxb 1#8) .rxData = false ∧ writesRxcrc (.rxb 1#8) .rxData = false ∧
    writesC .nop .idle = false ∧ writesBuffer .nop .idle = false ∧
    writesPosition .eclr = false ∧ (next? (exec .eclr bad)).isSome ∧
    writesPosition (.dpush 1#8) = false ∧ (next? (exec (.dpush 1#8) hi)).map State.err = some hi.err ∧
    (next? (exec (.dpush 1#8) (cap 0#32))).map State.err = some .overflow := by decide +kernel

theorem witness_CommandsLeaveOtherBufferBytes :
    (next? (exec (.dpush 1#8) hi)).isSome ∧ emptiesBuffer (.dpush 1#8) = false ∧ storedAddress (.dpush 1#8) hi ≠ some 1 ∧
    storedAddress (.dpush 1#8) hi ≠ some 3 ∧
    (next? (exec .dclr hi)).isSome ∧ emptiesBuffer .dclr = true ∧ hi.Ready := by decide

theorem witness_SequencerStepFrame :
    ∀ p ∈ [Phase.txSig, .txLen, .txCrc, .ccType, .ccData], (next? (seqStep (pos p 1#32))).isSome := by decide +kernel

/-- A step that emits a byte, and one that does not. -/
theorem witness_OutputIsAppendOnly :
    (next? (step (pos .txCrc 3#32))).map State.out = some [0x00#8] ∧ (next? (step hi)).map State.out = some [] := by decide

end Sys2Proof.Tests
end

section
/-! PROOFS, the step of the machine (00_scope.md R13, R15): what it runs while reset is released, and what a sequencer step
can do to the state. -/

namespace Sys2Proof.Machine

/-! ### What a step runs while reset is released -/

theorem step_of_resetReleased (s : State) (h : s.resetReleased = true) :
    step s = runStep { s with rst := s.rst.tail } := by
  obtain ⟨t, c, len, d, rxlen, rxcrc, phase, idx, err, dataMax, out, words, rst⟩ := s
  rcases rst with _ | ⟨_ | withdraw, rs⟩
  · rfl
  · rfl
  · cases h

theorem runStep_of_autonomous (s : State) (h : s.phase.autonomous = true) : runStep s = seqStep s := by
  simp [runStep, h]

theorem runStep_of_word (s : State) (w : CmdWord) (ws : List CmdWord) (ha : s.phase.autonomous = false)
    (hw : s.words = w :: ws) : runStep s = cmdStep w { s with words := ws } := by
  simp [runStep, ha, hw]

theorem cmdStep_of_command (w : CmdWord) (i : Instr) (s : State) (h : decode w = .command i) :
    cmdStep w s = exec i s := by
  simp [cmdStep, h]

/-! ### What a sequencer step can do, phase by phase: the byte it moves, where that byte goes, and a jump -/

section
variable {s u : State}

theorem seqTxSig_next (h : seqTxSig s = .next u) :
    ∃ b, signature[s.idx.toNat]? = some b ∧ ∃ p i, u = (s.emit b).goto p i := by
  obtain ⟨b, hb, hk⟩ := withFieldByte_next _ _ _ _ h
  refine ⟨b, hb, ?_⟩
  split at hk <;> cases hk <;> exact ⟨_, _, rfl⟩

theorem seqTxLen_next (h : seqTxLen s = .next u) :
    ∃ b, (be32 s.len)[s.idx.toNat]? = some b ∧ ∃ p i, u = (s.emit b).goto p i := by
  obtain ⟨b, hb, hk⟩ := withFieldByte_next _ _ _ _ h
  refine ⟨b, hb, ?_⟩
  split at hk <;> cases hk <;> exact ⟨_, _, rfl⟩

theorem seqTxType_next (h : seqTxType s = .next u) :
    ∃ b, s.t.bytes[s.idx.toNat]? = some b ∧ ∃ p i, u = ((s.emit b).foldByte b).goto p i := by
  obtain ⟨b, hb, hk⟩ := withFieldByte_next _ _ _ _ h
  refine ⟨b, hb, ?_⟩
  split_ifs at hk <;> cases hk <;> exact ⟨_, _, rfl⟩

theorem seqTxData_next (h : seqTxData s = .next u) :
    ∃ b, s.readBuffer s.idx = some b ∧ ∃ p i, u = ((s.emit b).foldByte b).goto p i := by
  obtain ⟨b, hb, hk⟩ := withBufferByte_next _ _ _ h
  refine ⟨b, hb, ?_⟩
  split at hk <;> cases hk <;> exact ⟨_, _, rfl⟩

theorem seqTxCrc_next (h : seqTxCrc s = .next u) :
    ∃ b, (be32 (crcFinal s.c))[s.idx.toNat]? = some b ∧ ∃ p i, u = (s.emit b).goto p i := by
  obtain ⟨b, hb, hk⟩ := withFieldByte_next _ _ _ _ h
  refine ⟨b, hb, ?_⟩
  split at hk <;> cases hk <;> exact ⟨_, _, rfl⟩

theorem seqCcType_next (h : seqCcType s = .next u) :
    ∃ b, s.t.bytes[s.idx.toNat]? = some b ∧ ∃ p i, u = (s.foldByte b).goto p i := by
  obtain ⟨b, hb, hk⟩ := withFieldByte_next _ _ _ _ h
  refine ⟨b, hb, ?_⟩
  split_ifs at hk <;> cases hk <;> exact ⟨_, _, rfl⟩

theorem seqCcData_next (h : seqCcData s = .next u) :
    ∃ b, s.readBuffer s.idx = some b ∧ ∃ p i, u = (s.foldByte b).goto p i := by
  obtain ⟨b, hb, hk⟩ := withBufferByte_next _ _ _ h
  refine ⟨b, hb, ?_⟩
  split at hk <;> cases hk <;> exact ⟨_, _, rfl⟩

/-- A sequencer step moves nothing, or emits a byte, folds it into `C`, or does both, and jumps (R13). -/
theorem seqStep_cases (h : seqStep s = .next u) :
    u = s ∨ ∃ b p i, u = (s.emit b).goto p i ∨ u = (s.foldByte b).goto p i ∨
      u = ((s.emit b).foldByte b).goto p i := by
  cases hp : s.phase <;> simp only [seqStep, hp] at h
  case txSig => obtain ⟨b, -, p, i, hu⟩ := seqTxSig_next h; exact .inr ⟨b, p, i, .inl hu⟩
  case txLen => obtain ⟨b, -, p, i, hu⟩ := seqTxLen_next h; exact .inr ⟨b, p, i, .inl hu⟩
  case txType => obtain ⟨b, -, p, i, hu⟩ := seqTxType_next h; exact .inr ⟨b, p, i, .inr (.inr hu)⟩
  case txData => obtain ⟨b, -, p, i, hu⟩ := seqTxData_next h; exact .inr ⟨b, p, i, .inr (.inr hu)⟩
  case txCrc => obtain ⟨b, -, p, i, hu⟩ := seqTxCrc_next h; exact .inr ⟨b, p, i, .inl hu⟩
  case ccType => obtain ⟨b, -, p, i, hu⟩ := seqCcType_next h; exact .inr ⟨b, p, i, .inr (.inl hu)⟩
  case ccData => obtain ⟨b, -, p, i, hu⟩ := seqCcData_next h; exact .inr ⟨b, p, i, .inr (.inl hu)⟩
  all_goals cases h; exact .inl rfl

/-- The host's side, the words on the port and the coming reset samples, is not the sequencer's to change (R15, R29). -/
theorem seqStep_keeps_host (h : seqStep s = .next u) : u.words = s.words ∧ u.rst = s.rst := by
  obtain rfl | ⟨b, p, i, rfl | rfl | rfl⟩ := seqStep_cases h <;> simp

end

/-! ### The statements -/

/-- Settles O9: with reset released the step is `runStep`, in an autonomous phase that is the sequencer's, and no sequencer
step touches the host's side. -/
theorem autonomousPhaseHoldsTheCommand : Obligations.AutonomousPhaseHoldsTheCommand := by
  intro s hr ha
  have hstep : step s = seqStep { s with rst := s.rst.tail } :=
    (step_of_resetReleased s hr).trans (runStep_of_autonomous _ ha)
  exact ⟨hstep, fun u hu => seqStep_keeps_host (hstep.symm.trans hu)⟩

/-- Settles O7: released reset, then the word on the port, then its decoding each pick the branch the statement names. -/
theorem stepRunsTheDecodedCommand : Obligations.StepRunsTheDecodedCommand := by
  intro s w ws i hr ha hw hd _
  calc step s
      = runStep { s with rst := s.rst.tail } := step_of_resetReleased s hr
    _ = cmdStep w { s with words := ws, rst := s.rst.tail } := runStep_of_word _ w ws ha hw
    _ = exec i { s with words := ws, rst := s.rst.tail } := cmdStep_of_command w i _ hd

end Sys2Proof.Machine
end

section
/-! PROOFS, the read port (10_state.md R33 to R35): the words it returns and the fields of the status word. -/

namespace Sys2Proof.Machine

/-! ### The words of the read port (R34) -/

section
variable (s : State)

@[simp] theorem State.readWord_zero : s.readWord 0 = s.status := rfl
@[simp] theorem State.readWord_one : s.readWord 1 = fromBe32 s.t.b0 s.t.b1 s.t.b2 s.t.b3 := rfl
@[simp] theorem State.readWord_two : s.readWord 2 = s.len := rfl
@[simp] theorem State.readWord_three : s.readWord 3 = crcFinal s.c := rfl
@[simp] theorem State.readWord_four : s.readWord 4 = s.c := rfl
@[simp] theorem State.readWord_five : s.readWord 5 = s.rxlen := rfl
@[simp] theorem State.readWord_six : s.readWord 6 = s.rxcrc := rfl
@[simp] theorem State.readWord_seven : s.readWord 7 = s.idx := rfl
@[simp] theorem State.readWord_eight : s.readWord 8 = s.dataMax := rfl

theorem State.readWord_of_nine_le (i : BitVec 4) (h : 9 ≤ i.toNat) : s.readWord i = 0#32 := by
  unfold State.readWord
  split
  case h_10 => rfl
  all_goals omega

end

/-- Byte `i` of the big-endian view is the byte whose bits stand at `8 * (3 - i)` (R10). -/
theorem be32Byte_eq {v : Word} {i : Nat} {b : Byte} (h : ∀ k < 8, v.getLsbD (8 * (3 - i) + k) = b.getLsbD k) :
    be32Byte v i = b := by
  apply BitVec.eq_of_getLsbD_eq
  intro k hk
  simpa [be32Byte, hk] using h k hk

/-- The big-endian view undoes `from_be32` (R10). -/
theorem be32_fromBe32 (b0 b1 b2 b3 : Byte) : be32 (fromBe32 b0 b1 b2 b3) = [b0, b1, b2, b3] := by
  simp only [be32, List.cons.injEq, and_true]
  refine ⟨be32Byte_eq ?_, be32Byte_eq ?_, be32Byte_eq ?_, be32Byte_eq ?_⟩ <;>
    intro k hk <;> interval_cases k <;> simp [fromBe32]

/-! ### The status word, bit by bit (R33) -/

theorem getElem_flagBit (b : Bool) (n k : Nat) (hk : k < 32) : (flagBit b n)[k] = (decide (k = n) && b) := by
  cases b
  · simp [flagBit]
  · simp only [flagBit, if_true, BitVec.getElem_shiftLeft, BitVec.getElem_one]
    grind

/-- Bit `k` of the status word: the fields of R33 do not overlap. -/
theorem State.getElem_status (s : State) (k : Nat) (hk : k < 32) :
    s.status[k] =
      (s.err.code.getLsbD k || (!decide (k < 4) && s.phase.code.getLsbD (k - 4)) ||
        (decide (k = 8) && s.t.crit) || (decide (k = 9) && s.t.pub) || (decide (k = 10) && s.t.rsvok) ||
        (decide (k = 11) && s.t.safe) || (decide (k = 12) && s.t.priv) || (decide (k = 13) && s.t.valid)) := by
  simp [State.status, getElem_flagBit]

/-- The bits above the fields are zero. -/
theorem State.status_getLsbD_of_ge (s : State) (k : Nat) (hk : 14 ≤ k) : s.status.getLsbD k = false := by
  by_cases hk' : k < 32
  · have he : s.err.code.getLsbD k = false := BitVec.getLsbD_of_ge _ _ (by omega)
    have hp : s.phase.code.getLsbD (k - 4) = false := BitVec.getLsbD_of_ge _ _ (by omega)
    rw [BitVec.getLsbD_eq_getElem hk', s.getElem_status, he, hp]
    grind
  · exact BitVec.getLsbD_of_ge _ _ (by omega)

/-! ### The reset state at the read ports (R42) -/

theorem State.status_resetWith (n : Word) : (State.resetWith n).status = 0x00000700#32 :=
  calc (State.resetWith n).status = (State.resetWith 0#32).status := rfl
    _ = 0x00000700#32 := by decide

theorem State.readBuffer_resetWith (n i : Word) : (State.resetWith n).readBuffer i = none := by
  simp [State.readBuffer, State.resetWith]

/-! ### The statements -/

/-- Settles O54: the code tables of `Phase.code` and `Err.code`, read off. -/
theorem codesInTheStatusWord : Obligations.CodesInTheStatusWord := ⟨rfl, rfl⟩

/-- Settles O55, word by word; word 1 by the round trip of the big-endian view. -/
theorem readPortWordMap : Obligations.ReadPortWordMap := fun s =>
  ⟨be32_fromBe32 _ _ _ _, s.readWord_two, s.readWord_three, s.readWord_four, s.readWord_five, s.readWord_six,
    s.readWord_seven, s.readWord_eight, s.readWord_of_nine_le⟩

/-- Settles O53: the fields bit by bit, and the reset value. -/
theorem statusWordFields : Obligations.StatusWordFields := by
  refine ⟨State.status_resetWith, fun s => ?_⟩
  rw [State.readWord_zero]
  refine ⟨?err, ?phase, ?_, ?_, ?_, ?_, ?_, ?_, ?above⟩
  case err =>
    apply BitVec.eq_of_getElem_eq
    intro k hk
    interval_cases k <;> simp [s.getElem_status]
  case phase =>
    apply BitVec.eq_of_getElem_eq
    intro k hk
    interval_cases k <;> simp [s.getElem_status]
  case above =>
    apply BitVec.eq_of_getElem_eq
    intro k hk
    simp [s.status_getLsbD_of_ge]
  all_goals simp [s.getElem_status]

/-- Settles O12: the registers are the literals of `State.resetWith`, and each read word is a register. -/
theorem resetValues : Obligations.ResetValues := by
  refine ⟨rfl, fun n => ⟨rfl, rfl, rfl, rfl, rfl, rfl, rfl, rfl, State.readBuffer_resetWith n, State.status_resetWith n,
    ?type, rfl, ?crc, rfl, rfl, rfl, rfl, rfl⟩⟩
  case type => exact (by decide : fromBe32 0#8 0#8 0#8 0#8 = 0#32)
  case crc => exact (by decide : crcFinal 0xFFFFFFFF#32 = 0#32)

end Sys2Proof.Machine
end

section
/-! PROOFS, what a command can do (30_encoding.md R78), said once: the dispatch by its three rules, the effects of the
commands, and the treatment of a reserved word. -/

namespace Sys2Proof.Machine

/-- `CommandEffect s i u`: what the command `i` can turn the state `s` into. Nothing (held, dropped, or a command that does
nothing), a raise, or the effect of the command's own rule under the guards of its branch. -/
inductive CommandEffect (s : State) : Instr → State → Prop
  | unchanged (i : Instr) : CommandEffect s i s
  | raised (i : Instr) (e : Err) (hn : s.err = .none) (he : e ∈ raises i s.phase) : CommandEffect s i (s.raise e)
  | eclr : CommandEffect s .eclr s.clearError
  | srst : CommandEffect s .srst s.resetRegisters
  | cinit (hr : s.Ready) : CommandEffect s .cinit s.seedCrc
  | cupd (b : Byte) (hr : s.Ready) : CommandEffect s (.cupd b) (s.foldByte b)
  | ccalc (hr : s.Ready) : CommandEffect s .ccalc (s.seedCrc.goto .ccType 0#32)
  | ldt0 (b : Byte) (hr : s.Ready) : CommandEffect s (.ldt0 b) (s.loadType 0 b)
  | ldt1 (b : Byte) (hr : s.Ready) : CommandEffect s (.ldt1 b) (s.loadType 1 b)
  | ldt2 (b : Byte) (hr : s.Ready) : CommandEffect s (.ldt2 b) (s.loadType 2 b)
  | ldt3 (b : Byte) (hr : s.Ready) : CommandEffect s (.ldt3 b) (s.loadType 3 b)
  | dclr (hr : s.Ready) : CommandEffect s .dclr s.emptyBuffer
  | dpush (b : Byte) (hr : s.Ready) (hl : s.len < s.dataMax) : CommandEffect s (.dpush b) (s.appendByte b)
  | sig (hr : s.Ready) : CommandEffect s .sig (s.goto .txSig 0#32)
  | emit (hr : s.Ready) : CommandEffect s .emit (s.seedCrc.goto .txLen 0#32)
  | rxsig (hr : s.Ready) : CommandEffect s .rxsig (s.goto .rxSig 0#32)
  | rxchunk (hr : s.Ready) : CommandEffect s .rxchunk (s.seedCrc.emptyBuffer.clearRx.goto .rxLen 0#32)
  | rxbSigMore (b : Byte) (hp : s.phase = .rxSig) (hn : s.err = .none)
      (hb : signature[s.idx.toNat]? = some b) (hi : s.idx < 7#32) :
      CommandEffect s (.rxb b) (s.goto .rxSig (s.idx + 1#32))
  | rxbSigLast (b : Byte) (hp : s.phase = .rxSig) (hn : s.err = .none)
      (hb : signature[s.idx.toNat]? = some b) (hi : ¬ s.idx < 7#32) :
      CommandEffect s (.rxb b) (s.goto .idle 0#32)
  | rxbLenMore (b : Byte) (hp : s.phase = .rxLen) (hn : s.err = .none) (hi : s.idx < 3#32) :
      CommandEffect s (.rxb b) ((s.shiftLen b).goto .rxLen (s.idx + 1#32))
  | rxbLenTooLong (b : Byte) (hp : s.phase = .rxLen) (hn : s.err = .none) (hi : ¬ s.idx < 3#32)
      (hl : s.dataMax < shiftIn s.rxlen b) : CommandEffect s (.rxb b) ((s.shiftLen b).raise .overflow)
  | rxbLenLast (b : Byte) (hp : s.phase = .rxLen) (hn : s.err = .none) (hi : ¬ s.idx < 3#32)
      (hl : ¬ s.dataMax < shiftIn s.rxlen b) : CommandEffect s (.rxb b) ((s.shiftLen b).goto .rxType 0#32)
  | rxbTypeMore (b : Byte) (k : Fin 4) (hk : k.val = s.idx.toNat) (hp : s.phase = .rxType) (hn : s.err = .none)
      (hi : s.idx < 3#32) : CommandEffect s (.rxb b) (((s.loadType k b).foldByte b).goto .rxType (s.idx + 1#32))
  | rxbTypeLastEmpty (b : Byte) (k : Fin 4) (hk : k.val = s.idx.toNat) (hp : s.phase = .rxType) (hn : s.err = .none)
      (hi : ¬ s.idx < 3#32) (hl : s.rxlen = 0#32) :
      CommandEffect s (.rxb b) (((s.loadType k b).foldByte b).goto .rxCrc 0#32)
  | rxbTypeLast (b : Byte) (k : Fin 4) (hk : k.val = s.idx.toNat) (hp : s.phase = .rxType) (hn : s.err = .none)
      (hi : ¬ s.idx < 3#32) (hl : s.rxlen ≠ 0#32) :
      CommandEffect s (.rxb b) (((s.loadType k b).foldByte b).goto .rxData 0#32)
  | rxbDataMore (b : Byte) (hp : s.phase = .rxData) (hn : s.err = .none) (hc : s.len < s.dataMax)
      (hl : s.len + 1#32 ≠ s.rxlen) :
      CommandEffect s (.rxb b) (((s.appendByte b).foldByte b).goto .rxData (s.idx + 1#32))
  | rxbDataLast (b : Byte) (hp : s.phase = .rxData) (hn : s.err = .none) (hc : s.len < s.dataMax)
      (hl : s.len + 1#32 = s.rxlen) : CommandEffect s (.rxb b) (((s.appendByte b).foldByte b).goto .rxCrc 0#32)
  | rxbCrcMore (b : Byte) (hp : s.phase = .rxCrc) (hn : s.err = .none) (hi : s.idx < 3#32) :
      CommandEffect s (.rxb b) ((s.shiftCrc b).goto .rxCrc (s.idx + 1#32))
  | rxbCrcMismatch (b : Byte) (hp : s.phase = .rxCrc) (hn : s.err = .none) (hi : ¬ s.idx < 3#32)
      (hc : shiftIn s.rxcrc b ≠ crcFinal s.c) : CommandEffect s (.rxb b) ((s.shiftCrc b).raise .crcMismatch)
  | rxbCrcLast (b : Byte) (hp : s.phase = .rxCrc) (hn : s.err = .none) (hi : ¬ s.idx < 3#32)
      (hc : shiftIn s.rxcrc b = crcFinal s.c) : CommandEffect s (.rxb b) ((s.shiftCrc b).goto .idle 0#32)

/-! ### The dispatch, by rule -/

section
variable {s u : State} {b : Byte}

/-- A phase that is neither autonomous nor waiting is `IDLE` (R29). -/
theorem Phase.eq_idle {p : Phase} (ha : p.autonomous = false) (hw : p.waiting = false) : p = .idle := by
  cases p <;> simp_all [Phase.autonomous, Phase.waiting]

/-- A command legal in `IDLE` only is held, dropped, out of sequence, or performed in a ready state. -/
theorem accept_idleOnly_effect {i : Instr} {f : State → Result}
    (hb : s.phase.waiting = true → .badSequence ∈ raises i s.phase)
    (hf : s.Ready → f s = .next u → CommandEffect s i u) (h : accept .idleOnly f s = .next u) :
    CommandEffect s i u := by
  obtain ⟨-, hu⟩ | ⟨-, -, -, hu⟩ | ⟨-, hn, hw, -, hu⟩ | ⟨ha, hn, hw, hu⟩ := accept_cases _ _ _ _ h
  · cases hu; exact .unchanged i
  · cases hu; exact .unchanged i
  · cases hu; exact .raised i _ hn (hb hw)
  · have hn : s.err = .none := by simpa using hn
    have hw : s.phase.waiting = false := by simpa [hn] using hw
    exact hf ⟨Phase.eq_idle ha hw, hn⟩ hu.symm

/-- A command legal in `IDLE` only whose rule is the one state update `g`. -/
theorem exec_idleOnly_effect {i : Instr} (g : State → State)
    (hx : exec i s = accept .idleOnly (fun v => .next (g v)) s)
    (hb : raises i s.phase = if s.phase.waiting then [.badSequence] else [])
    (hg : s.Ready → CommandEffect s i (g s)) (h : exec i s = .next u) : CommandEffect s i u :=
  accept_idleOnly_effect (fun hw => by simp [hb, hw]) (fun hr hf => by cases hf; exact hg hr) (hx.symm.trans h)

/-- A command legal in every phase is held, dropped, or performed with no error latched. -/
theorem accept_anyPhase_effect {i : Instr} {f : State → Result}
    (hf : s.err = .none → f s = .next u → CommandEffect s i u) (h : accept .anyPhase f s = .next u) :
    CommandEffect s i u := by
  obtain ⟨-, hu⟩ | ⟨-, -, -, hu⟩ | ⟨-, -, -, hl, -⟩ | ⟨-, hn, -, hu⟩ := accept_cases _ _ _ _ h
  · cases hu; exact .unchanged i
  · cases hu; exact .unchanged i
  · cases hl
  · exact hf (by simpa using hn) hu.symm

/-- A command that is always legal is held or performed. -/
theorem accept_always_effect {i : Instr} {f : State → Result} (hf : f s = .next u → CommandEffect s i u)
    (h : accept .always f s = .next u) : CommandEffect s i u := by
  obtain ⟨-, hu⟩ | ⟨-, -, hl, -⟩ | ⟨-, -, -, hl, -⟩ | ⟨-, -, -, hu⟩ := accept_cases _ _ _ _ h
  · cases hu; exact .unchanged i
  · cases hl rfl
  · cases hl
  · exact hf hu.symm

/-! ### The received byte, phase by phase (R161, R184) -/

theorem rxbSig_effect (hp : s.phase = .rxSig) (hn : s.err = .none) (h : rxbSig b s = .next u) :
    CommandEffect s (.rxb b) u := by
  obtain ⟨want, hwant, hk⟩ := withFieldByte_next _ _ _ _ h
  split_ifs at hk with hb hi <;> cases hk
  · exact .raised _ _ hn (by simp [raises, hp])
  · exact .rxbSigMore b hp hn (not_not.mp hb ▸ hwant) hi
  · exact .rxbSigLast b hp hn (not_not.mp hb ▸ hwant) hi

theorem rxbLen_effect (hp : s.phase = .rxLen) (hn : s.err = .none) (h : rxbLen b s = .next u) :
    CommandEffect s (.rxb b) u := by
  simp only [rxbLen] at h
  split_ifs at h with hi hl <;> cases h
  · exact .rxbLenMore b hp hn hi
  · exact .rxbLenTooLong b hp hn hi hl
  · exact .rxbLenLast b hp hn hi hl

theorem rxbType_effect (hp : s.phase = .rxType) (hn : s.err = .none) (h : rxbType b s = .next u) :
    CommandEffect s (.rxb b) u := by
  obtain ⟨k, hk, h⟩ := withTypeIndex_next _ _ _ h
  dsimp only at h
  split_ifs at h with hi hl <;> cases h
  · exact .rxbTypeMore b k hk hp hn hi
  · exact .rxbTypeLastEmpty b k hk hp hn hi hl
  · exact .rxbTypeLast b k hk hp hn hi hl

theorem rxbData_effect (hp : s.phase = .rxData) (hn : s.err = .none) (h : rxbData b s = .next u) :
    CommandEffect s (.rxb b) u := by
  obtain ⟨hc, h⟩ := withAppended_next _ _ _ _ h
  dsimp only at h
  split_ifs at h with hl <;> cases h
  · exact .rxbDataLast b hp hn hc hl
  · exact .rxbDataMore b hp hn hc hl

theorem rxbCrc_effect (hp : s.phase = .rxCrc) (hn : s.err = .none) (h : rxbCrc b s = .next u) :
    CommandEffect s (.rxb b) u := by
  simp only [rxbCrc] at h
  split_ifs at h with hi hc <;> cases h
  · exact .rxbCrcMore b hp hn hi
  · exact .rxbCrcMismatch b hp hn hi hc
  · exact .rxbCrcLast b hp hn hi (by simpa using hc)

theorem execRxb_effect (h : execRxb b s = .next u) : CommandEffect s (.rxb b) u := by
  refine accept_anyPhase_effect (fun hn hf => ?_) h
  cases hp : s.phase <;> simp only [hp] at hf
  case rxSig => exact rxbSig_effect hp hn hf
  case rxLen => exact rxbLen_effect hp hn hf
  case rxType => exact rxbType_effect hp hn hf
  case rxData => exact rxbData_effect hp hn hf
  case rxCrc => exact rxbCrc_effect hp hn hf
  case idle => cases hf; exact .raised _ _ hn (by simp [raises, hp])
  all_goals cases hf; exact .unchanged _

theorem execRxeof_effect (h : execRxeof s = .next u) : CommandEffect s .rxeof u := by
  refine accept_anyPhase_effect (fun hn hf => ?_) h
  cases hp : s.phase <;> simp only [hp] at hf <;> cases hf
  case rxSig | rxLen | rxType | rxData | rxCrc => exact .raised _ _ hn (by simp [raises, hp, Phase.waiting])
  all_goals exact .unchanged _

theorem execDpush_effect (h : execDpush b s = .next u) : CommandEffect s (.dpush b) u := by
  have hb (hw : s.phase.waiting = true) : .badSequence ∈ raises (.dpush b) s.phase := by
    cases hp : s.phase <;> simp [hp, raises, Phase.waiting] at hw ⊢
  refine accept_idleOnly_effect hb (fun hr hf => ?_) h
  split_ifs at hf with hfull
  · cases hf; exact .raised _ _ hr.2 (by simp [raises, hr.1])
  · obtain ⟨hl, hf⟩ := withAppended_next _ _ _ _ hf
    cases hf; exact .dpush b hr hl

/-- Whatever `exec` answers as a next state is an effect of the command. -/
theorem exec_effect {i : Instr} (h : exec i s = .next u) : CommandEffect s i u := by
  cases i with
  | nop => exact accept_anyPhase_effect (f := .next) (fun _ hf => by cases hf; exact .unchanged _) h
  | eclr => exact accept_always_effect (f := fun v => .next v.clearError) (fun hf => by cases hf; exact .eclr) h
  | srst => exact accept_always_effect (f := fun v => .next v.resetRegisters) (fun hf => by cases hf; exact .srst) h
  | cinit => exact exec_idleOnly_effect State.seedCrc rfl rfl .cinit h
  | cupd b => exact exec_idleOnly_effect (·.foldByte b) rfl rfl (.cupd b) h
  | ccalc => exact exec_idleOnly_effect (·.seedCrc.goto .ccType 0#32) rfl rfl .ccalc h
  | ldt0 b => exact exec_idleOnly_effect (·.loadType 0 b) rfl rfl (.ldt0 b) h
  | ldt1 b => exact exec_idleOnly_effect (·.loadType 1 b) rfl rfl (.ldt1 b) h
  | ldt2 b => exact exec_idleOnly_effect (·.loadType 2 b) rfl rfl (.ldt2 b) h
  | ldt3 b => exact exec_idleOnly_effect (·.loadType 3 b) rfl rfl (.ldt3 b) h
  | dclr => exact exec_idleOnly_effect State.emptyBuffer rfl rfl .dclr h
  | dpush b => exact execDpush_effect h
  | sig => exact exec_idleOnly_effect (·.goto .txSig 0#32) rfl rfl .sig h
  | emit => exact exec_idleOnly_effect (·.seedCrc.goto .txLen 0#32) rfl rfl .emit h
  | rxsig => exact exec_idleOnly_effect (·.goto .rxSig 0#32) rfl rfl .rxsig h
  | rxchunk => exact exec_idleOnly_effect (·.seedCrc.emptyBuffer.clearRx.goto .rxLen 0#32) rfl rfl .rxchunk h
  | rxb b => exact execRxb_effect h
  | rxeof => exact execRxeof_effect h

/-- A command step leaves the state, raises `IllegalCommand` for a reserved word, or has an effect of the command its word
decodes to (R74, R78). -/
theorem cmdStep_cases {w : CmdWord} (h : cmdStep w s = .next u) :
    u = s ∨ (s.err = .none ∧ u = s.raise .illegalCommand) ∨ ∃ i, decode w = .command i ∧ CommandEffect s i u := by
  unfold cmdStep at h
  split at h
  · next i hd => exact .inr (.inr ⟨i, hd, exec_effect h⟩)
  · unfold acceptReserved at h
    split_ifs at h with ha hn <;> cases h
    · exact .inl rfl
    · exact .inl rfl
    · exact .inr (.inl ⟨by simpa using hn, rfl⟩)

end

/-! ### The registers a command writes (R26) -/

theorem none_not_mem_raises (i : Instr) (p : Phase) : .none ∉ raises i p := by
  unfold raises
  split <;> simp

/-- Settles O57: the effects of the commands, read off register by register. -/
theorem commandsWriteOnlyTheirRegisters : Obligations.CommandsWriteOnlyTheirRegisters := by
  intro i s u h
  cases exec_effect h
  case raised e hn he =>
    have hne : e ≠ .none := fun h => none_not_mem_raises i s.phase (h ▸ he)
    have hi : i ≠ .eclr := by rintro rfl; cases he
    simp [hn, he, hne, hi]
  all_goals simp_all [writesT, writesC, writesBuffer, writesRxlen, writesRxcrc, writesPosition, raises]

end Sys2Proof.Machine
end

section
/-! PROOFS, the invariant of the spec (10_state.md R41): the reset state has it, every step keeps it, and what it says of
every reachable state. The buffer's part of it is kept apart from the position's, since most operations touch only one. -/

namespace Sys2Proof.Machine

/-! ### The buffer's part of the invariant, and the position's -/

/-- The clauses of `State.Inv` that speak of the capacity and the buffer (R41, invariants 1 and 6). -/
structure BufferOk (dataMax len : Word) (d : Memory) : Prop where
  legal : dataMax ≠ 0#32
  capacity : len ≤ dataMax
  buffer : d.map Prod.fst = List.range len.toNat

theorem BufferOk.empty {dataMax : Word} (h : dataMax ≠ 0#32) : BufferOk dataMax 0#32 [] :=
  ⟨h, by bv_omega, rfl⟩

/-- A byte appended below the capacity (R53). -/
theorem BufferOk.append {dataMax len : Word} {d : Memory} (h : BufferOk dataMax len d) (hl : len < dataMax) (b : Byte) :
    BufferOk dataMax (len + 1#32) (Memory.write d len.toNat b) := by
  have hlen : (len + 1#32).toNat = len.toNat + 1 := by bv_omega
  refine ⟨h.legal, by bv_omega, ?_⟩
  rw [Memory.write_range _ _ _ h.buffer, hlen, List.range_succ, List.map_append, h.buffer]
  rfl

section
variable {s u : State} {i : Word}

/-- The next byte of a four-byte field is still in it (R30). -/
theorem succ_lt_four (h : i < 3#32) : i + 1#32 < 4#32 := by bv_omega

theorem State.Inv.bufferOk (h : s.Inv) : BufferOk s.dataMax s.len s.d := ⟨h.legal, h.capacity, h.buffer⟩

theorem State.Inv.idx_eq_zero (h : s.Inv) (hp : s.phase = .idle) : s.idx = 0#32 := by
  simpa [State.PositionOk, hp] using h.position

/-! How far a reception has come, by phase (R24, R41) -/

theorem State.Inv.at_rxLen (h : s.Inv) (hp : s.phase = .rxLen) : s.len = 0#32 := by
  simpa [State.ReceptionOk, hp] using h.reception

theorem State.Inv.at_rxType (h : s.Inv) (hp : s.phase = .rxType) : s.len = 0#32 ∧ s.rxlen ≤ s.dataMax := by
  simpa [State.ReceptionOk, hp] using h.reception

theorem State.Inv.at_rxData (h : s.Inv) (hp : s.phase = .rxData) :
    s.idx = s.len ∧ s.len < s.rxlen ∧ s.rxlen ≤ s.dataMax := by
  have hpos : s.idx = s.len ∧ s.len < s.rxlen := by simpa only [State.PositionOk, hp] using h.position
  exact ⟨hpos.1, hpos.2, by simpa only [State.ReceptionOk, hp] using h.reception⟩

theorem State.Inv.at_rxCrc (h : s.Inv) (hp : s.phase = .rxCrc) : s.len = s.rxlen ∧ s.rxlen ≤ s.dataMax := by
  simpa [State.ReceptionOk, hp] using h.reception

/-! The invariant put together again -/

/-- In `IDLE` at 0 the invariant is the buffer's part. -/
theorem BufferOk.inv_of_idle (h : BufferOk s.dataMax s.len s.d) (hp : s.phase = .idle) (hi : s.idx = 0#32) : s.Inv where
  legal := h.legal
  capacity := h.capacity
  buffer := h.buffer
  position := by simp [State.PositionOk, hp, hi]
  errorIdle := fun _ => ⟨hp, hi⟩
  reception := by simp [State.ReceptionOk, hp]

/-- With no error latched the invariant is the buffer's part, the range of `IDX`, and the progress of the reception. -/
theorem BufferOk.inv_of_position (h : BufferOk s.dataMax s.len s.d) (hn : s.err = .none) (hp : s.PositionOk)
    (hr : s.ReceptionOk) : s.Inv where
  legal := h.legal
  capacity := h.capacity
  buffer := h.buffer
  position := hp
  errorIdle := fun he => absurd hn he
  reception := hr

/-- A raise goes to `IDLE`, 0, whatever the position was (R255). -/
theorem BufferOk.inv_raise (h : BufferOk s.dataMax s.len s.d) (e : Err) : (s.raise e).Inv :=
  BufferOk.inv_of_idle (s := s.raise e) h rfl rfl

/-- The host's words and samples are no part of the invariant. -/
theorem State.Inv.withHost (h : s.Inv) (words : List CmdWord) (rst : List ResetSample) :
    ({ s with words := words, rst := rst } : State).Inv :=
  ⟨h.legal, h.capacity, h.position, h.errorIdle, h.reception, h.buffer⟩

theorem State.Inv.clearError (h : s.Inv) : s.clearError.Inv :=
  ⟨h.legal, h.capacity, h.position, fun he => absurd rfl he, h.reception, h.buffer⟩

theorem State.Inv.resetRegisters (h : s.Inv) : s.resetRegisters.Inv :=
  BufferOk.inv_of_idle (s := s.resetRegisters) (.empty h.legal) rfl rfl

theorem resetStep_keeps_inv (h : s.Inv) (withdraw : Bool) : (resetStep withdraw s).Inv := by
  cases withdraw
  · exact h.resetRegisters
  · exact h.resetRegisters.withHost s.words.tail s.rst

/-! ### Sequencer steps -/

/-- No error is latched while an operation is in progress. -/
theorem State.Inv.err_eq_none (h : s.Inv) (hp : s.phase ≠ .idle) : s.err = .none := by
  by_contra he
  exact hp (h.errorIdle he).1

/-- Outside the waiting phases a reception has nothing to say. -/
theorem receptionOk_of_not_waiting (h : s.phase.waiting = false) : s.ReceptionOk := by
  unfold State.ReceptionOk
  split <;> simp_all [Phase.waiting]

/-- A sequencer step in an autonomous phase goes to an index in the range of its phase, and to no waiting phase (R30). -/
theorem seqStep_position (ha : s.phase.autonomous = true) (hpos : s.PositionOk) (h : seqStep s = .next u) :
    u.PositionOk ∧ u.phase.waiting = false := by
  have first_data_byte (hl : s.len ≠ 0#32) : 0#32 < s.len := by bv_omega
  have next_data_byte (hi : s.idx < s.len) (hl : s.idx + 1#32 ≠ s.len) : s.idx + 1#32 < s.len := by bv_omega
  cases hp : s.phase <;> simp only [hp, Phase.autonomous, Bool.false_eq_true] at ha <;>
    simp only [seqStep, hp] at h <;> simp only [State.PositionOk, hp] at hpos
  case txSig =>
    obtain ⟨b, -, h⟩ := withFieldByte_next _ _ _ _ h
    split_ifs at h with hi <;> cases h
    · exact ⟨(by bv_omega : s.idx + 1#32 < 8#32), rfl⟩
    · exact ⟨rfl, rfl⟩
  case txLen =>
    obtain ⟨b, -, h⟩ := withFieldByte_next _ _ _ _ h
    split_ifs at h with hi <;> cases h
    · exact ⟨succ_lt_four hi, rfl⟩
    · exact ⟨(by decide : 0#32 < 4#32), rfl⟩
  case txType =>
    obtain ⟨b, -, h⟩ := withFieldByte_next _ _ _ _ h
    split_ifs at h with hi hl <;> cases h
    · exact ⟨succ_lt_four hi, rfl⟩
    · exact ⟨(by decide : 0#32 < 4#32), rfl⟩
    · exact ⟨first_data_byte hl, rfl⟩
  case txData =>
    obtain ⟨b, -, h⟩ := withBufferByte_next _ _ _ h
    split_ifs at h with hl <;> cases h
    · exact ⟨(by decide : 0#32 < 4#32), rfl⟩
    · exact ⟨next_data_byte hpos hl, rfl⟩
  case txCrc =>
    obtain ⟨b, -, h⟩ := withFieldByte_next _ _ _ _ h
    split_ifs at h with hi <;> cases h
    · exact ⟨succ_lt_four hi, rfl⟩
    · exact ⟨rfl, rfl⟩
  case ccType =>
    obtain ⟨b, -, h⟩ := withFieldByte_next _ _ _ _ h
    split_ifs at h with hi hl <;> cases h
    · exact ⟨succ_lt_four hi, rfl⟩
    · exact ⟨rfl, rfl⟩
    · exact ⟨first_data_byte hl, rfl⟩
  case ccData =>
    obtain ⟨b, -, h⟩ := withBufferByte_next _ _ _ h
    split_ifs at h with hl <;> cases h
    · exact ⟨rfl, rfl⟩
    · exact ⟨next_data_byte hpos hl, rfl⟩

theorem seqStep_keeps_inv (hs : s.Inv) (ha : s.phase.autonomous = true) (h : seqStep s = .next u) : u.Inv := by
  obtain ⟨hpos, hw⟩ := seqStep_position ha hs.position h
  have hn : s.err = .none := hs.err_eq_none (by rintro hp; simp [hp, Phase.autonomous] at ha)
  obtain rfl | ⟨b, p, i, rfl | rfl | rfl⟩ := seqStep_cases h
  · exact hs
  all_goals exact BufferOk.inv_of_position hs.bufferOk hn hpos (receptionOk_of_not_waiting hw)

/-! ### Command steps -/

/-- Every effect of a command keeps the invariant. -/
theorem CommandEffect.keeps_inv {i : Instr} (h : CommandEffect s i u) (hs : s.Inv) : u.Inv := by
  have hb := hs.bufferOk
  cases h
  case unchanged => exact hs
  case raised e _ _ => exact hb.inv_raise e
  case eclr => exact hs.clearError
  case srst => exact hs.resetRegisters
  case cinit hr | cupd hr | ldt0 hr | ldt1 hr | ldt2 hr | ldt3 hr =>
    exact BufferOk.inv_of_idle hb hr.1 (hs.idx_eq_zero hr.1)
  case dclr hr => exact BufferOk.inv_of_idle (.empty hs.legal) hr.1 (hs.idx_eq_zero hr.1)
  case dpush b hr hl => exact BufferOk.inv_of_idle (hb.append hl b) hr.1 (hs.idx_eq_zero hr.1)
  case ccalc hr | emit hr => exact BufferOk.inv_of_position hb hr.2 (by decide : 0#32 < 4#32) trivial
  case sig hr | rxsig hr => exact BufferOk.inv_of_position hb hr.2 (by decide : 0#32 < 8#32) trivial
  case rxchunk hr => exact BufferOk.inv_of_position (.empty hs.legal) hr.2 (by decide : 0#32 < 4#32) rfl
  case rxbSigLast | rxbLenTooLong | rxbCrcMismatch | rxbCrcLast => exact BufferOk.inv_of_idle hb rfl rfl
  case rxbSigMore hp hn _ hi =>
    exact BufferOk.inv_of_position hb hn (by bv_omega : s.idx + 1#32 < 8#32) trivial
  case rxbLenMore hp hn hi => exact BufferOk.inv_of_position hb hn (succ_lt_four hi) (hs.at_rxLen hp)
  case rxbLenLast hp hn hi hl =>
    exact BufferOk.inv_of_position hb hn (by decide : 0#32 < 4#32) ⟨hs.at_rxLen hp, BitVec.not_lt.mp hl⟩
  case rxbTypeMore hp hn hi => exact BufferOk.inv_of_position hb hn (succ_lt_four hi) (hs.at_rxType hp)
  case rxbTypeLastEmpty hp hn hi hl =>
    obtain ⟨hlen, hmax⟩ := hs.at_rxType hp
    exact BufferOk.inv_of_position hb hn (by decide : 0#32 < 4#32) ⟨hlen.trans hl.symm, hmax⟩
  case rxbTypeLast hp hn hi hl =>
    obtain ⟨hlen, hmax⟩ := hs.at_rxType hp
    exact BufferOk.inv_of_position hb hn (⟨hlen.symm, by bv_omega⟩ : 0#32 = s.len ∧ s.len < s.rxlen) hmax
  case rxbDataMore b hp hn hc hl =>
    obtain ⟨hidx, hlt, hmax⟩ := hs.at_rxData hp
    exact BufferOk.inv_of_position (hb.append hc b) hn
      (⟨by rw [hidx], by bv_omega⟩ : s.idx + 1#32 = s.len + 1#32 ∧ s.len + 1#32 < s.rxlen) hmax
  case rxbDataLast b hp hn hc hl =>
    obtain ⟨-, -, hmax⟩ := hs.at_rxData hp
    exact BufferOk.inv_of_position (hb.append hc b) hn (by decide : 0#32 < 4#32) ⟨hl, hmax⟩
  case rxbCrcMore hp hn hi => exact BufferOk.inv_of_position hb hn (succ_lt_four hi) (hs.at_rxCrc hp)

theorem cmdStep_keeps_inv {w : CmdWord} (hs : s.Inv) (h : cmdStep w s = .next u) : u.Inv := by
  obtain rfl | ⟨-, rfl⟩ | ⟨i, -, he⟩ := cmdStep_cases h
  · exact hs
  · exact hs.bufferOk.inv_raise _
  · exact he.keeps_inv hs

end

/-! ### What the invariant says of the buffer port (R35) -/

theorem State.Inv.payload_length {s : State} (h : s.Inv) : s.payload.length = s.len.toNat := by
  rw [s.payload_eq h.buffer, List.length_map, ← List.length_map (f := Prod.fst), h.buffer, List.length_range]

theorem State.Inv.readBuffer_eq {s : State} (h : s.Inv) {i : Word} (hi : i < s.len) :
    s.readBuffer i = s.payload[i.toNat]? := by
  rw [State.readBuffer, if_pos hi, Memory.read_of_range _ _ h.buffer, s.payload_eq h.buffer]

theorem State.Inv.exists_readBuffer {s : State} (h : s.Inv) {i : Word} (hi : i < s.len) :
    ∃ b, s.readBuffer i = some b := by
  have hlt : i.toNat < s.payload.length := by rw [h.payload_length]; exact hi
  exact ⟨_, (h.readBuffer_eq hi).trans (List.getElem?_eq_getElem hlt)⟩

/-! ### The statements -/

/-- Settles O40, by the kind of step: reset, sequencer, wait, command. -/
theorem everyStepKeepsTheInvariant : Obligations.EveryStepKeepsTheInvariant := by
  intro s u hs h
  obtain ⟨w, rs, -, hr⟩ | ⟨-, ⟨ha, hr⟩ | ⟨-, -, hr⟩ | ⟨w, ws, -, -, hr⟩⟩ := step_cases s _ h
  · cases hr; exact resetStep_keeps_inv (hs.withHost s.words rs) w
  · exact seqStep_keeps_inv (hs.withHost s.words s.rst.tail) ha hr.symm
  · cases hr; exact hs.withHost s.words s.rst.tail
  · exact cmdStep_keeps_inv (hs.withHost ws s.rst.tail) hr.symm

theorem inv_resetWith {n : Word} (hn : n ≠ 0#32) : (State.resetWith n).Inv :=
  BufferOk.inv_of_idle (s := State.resetWith n) (.empty hn) rfl rfl

/-- Settles O39: the reset state is in `IDLE` with an empty buffer, where `C` tracks nothing. -/
theorem resetSatisfiesTheInvariant : Obligations.ResetSatisfiesTheInvariant :=
  ⟨fun _ hn => ⟨inv_resetWith hn, trivial⟩, inv_resetWith (by decide)⟩

theorem inv_of_reachable {s : State} (h : Reachable s) : s.Inv := by
  induction h with
  | reset n hn => exact inv_resetWith hn
  | step s s' _ hstep ih => exact everyStepKeepsTheInvariant s s' ih hstep
  | host s words rst _ ih => exact ih.withHost words rst

/-- Settles O56: below `LEN` the invariant's buffer has a cell at every address, and at `LEN` the port refuses. -/
theorem bufferPortReadsThePayload : Obligations.BufferPortReadsThePayload := by
  intro s hs
  refine ⟨hs.payload_length, fun i hi => ?_, fun i hi => ?_⟩
  · obtain ⟨b, hb⟩ := hs.exists_readBuffer hi
    exact ⟨b, hb, (hs.readBuffer_eq hi).symm.trans hb⟩
  · rw [State.readBuffer, if_neg (by bv_omega)]

/-- Settles O42: the invariants of R41 are those of `State.Inv`, which every reachable state has. -/
theorem reachableStatesSatisfyR41 : Obligations.ReachableStatesSatisfyR41 := by
  intro s h
  have hs := inv_of_reachable h
  refine ⟨hs.capacity, hs.position, hs.errorIdle, ?moving, fun hp => hs.at_rxData hp, ?rxlen,
    fun i => hs.exists_readBuffer⟩
  case moving => rintro (hp | hp) <;> simpa only [State.PositionOk, hp] using hs.position
  case rxlen =>
    rintro (hp | hp | hp)
    · exact (hs.at_rxType hp).2
    · exact (hs.at_rxData hp).2.2
    · exact (hs.at_rxCrc hp).2

end Sys2Proof.Machine
end

section
/-! PROOFS, the output stream (10_state.md R36): no step takes a byte back, and only the `TX_*` phases add one. -/

namespace Sys2Proof.Machine

/-- A sequencer step outside the phases `TX_*` emits nothing. -/
theorem seqStep_out_of_not_tx {s u : State} (hp : s.phase ∉ [Phase.txSig, .txLen, .txType, .txData, .txCrc])
    (h : seqStep s = .next u) : u.out = s.out := by
  cases hq : s.phase <;> simp only [seqStep, hq] at h
  case txSig | txLen | txType | txData | txCrc => exact absurd (by simp [hq]) hp
  case ccType => obtain ⟨b, -, p, i, rfl⟩ := seqCcType_next h; rfl
  case ccData => obtain ⟨b, -, p, i, rfl⟩ := seqCcData_next h; rfl
  all_goals cases h; rfl

theorem seqStep_out {s u : State} (h : seqStep s = .next u) : ∃ bs : List Byte, u.out = s.out ++ bs ∧ bs.length ≤ 1 := by
  obtain rfl | ⟨b, p, i, rfl | rfl | rfl⟩ := seqStep_cases h
  · exact ⟨[], by simp⟩
  · exact ⟨[b], by simp⟩
  · exact ⟨[], by simp⟩
  · exact ⟨[b], by simp⟩

theorem CommandEffect.out_eq {i : Instr} {s u : State} (h : CommandEffect s i u) : u.out = s.out := by
  cases h <;> rfl

theorem cmdStep_out {w : CmdWord} {s u : State} (h : cmdStep w s = .next u) : u.out = s.out := by
  obtain rfl | ⟨-, rfl⟩ | ⟨i, -, he⟩ := cmdStep_cases h
  · rfl
  · rfl
  · exact he.out_eq

theorem resetStep_out (withdraw : Bool) (s : State) : (resetStep withdraw s).out = s.out := by
  cases withdraw <;> rfl

/-- Settles O60, by the kind of step: only a sequencer step in a phase `TX_*` emits. -/
theorem outputIsAppendOnly : Obligations.OutputIsAppendOnly := by
  intro s u h
  have of_out_eq (ho : u.out = s.out) : ∃ bs : List Byte, u.out = s.out ++ bs ∧ bs.length ≤ 1 ∧
      (bs ≠ [] → s.phase ∈ [Phase.txSig, .txLen, .txType, .txData, .txCrc]) := ⟨[], by simp [ho]⟩
  obtain ⟨w, rs, -, hr⟩ | ⟨-, ⟨ha, hr⟩ | ⟨-, -, hr⟩ | ⟨w, ws, -, -, hr⟩⟩ := step_cases s _ h
  · cases hr; exact of_out_eq (resetStep_out w _)
  · by_cases hp : s.phase ∈ [Phase.txSig, .txLen, .txType, .txData, .txCrc]
    · obtain ⟨bs, hout, hlen⟩ := seqStep_out hr.symm
      exact ⟨bs, hout, hlen, fun _ => hp⟩
    · have hout := seqStep_out_of_not_tx (s := { s with rst := s.rst.tail }) hp hr.symm
      exact of_out_eq hout
  · cases hr; exact of_out_eq rfl
  · have hout := cmdStep_out (s := { s with words := ws, rst := s.rst.tail }) hr.symm
    exact of_out_eq hout

end Sys2Proof.Machine
end

section
/-! PROOFS, the payload buffer under the commands (20_memory.md R53, R54): a command keeps it, stores one byte at `LEN`, or
empties it. -/

namespace Sys2Proof.Machine

/-- The buffer is kept, written at the command's stored address, or the command is one that empties it. -/
theorem CommandEffect.buffer_cases {i : Instr} {s u : State} (h : CommandEffect s i u) :
    u.d = s.d ∨ (∃ n b, storedAddress i s = some n ∧ u.d = Memory.write s.d n b) ∨ emptiesBuffer i = true := by
  cases h
  case dpush b _ _ => exact .inr (.inl ⟨_, b, rfl, rfl⟩)
  case rxbDataMore b hp _ _ _ | rxbDataLast b hp _ _ _ => exact .inr (.inl ⟨_, b, if_pos hp, rfl⟩)
  case srst | dclr | rxchunk => exact .inr (.inr rfl)
  all_goals exact .inl rfl

/-- A command whose rule is the state update `g` is performed in a ready state (R78). -/
theorem accept_update_of_ready {l : Legality} {s u : State} (g : State → State) (hr : s.Ready)
    (h : accept l (fun v => .next (g v)) s = .next u) : u = g s := by
  rw [accept_ready _ _ _ hr.1 hr.2] at h
  cases h
  rfl

theorem exec_empties_of_ready {i : Instr} {s u : State} (hi : emptiesBuffer i = true) (hr : s.Ready)
    (h : exec i s = .next u) : u.len = 0#32 ∧ u.d = [] := by
  cases i
  case srst => cases accept_update_of_ready State.resetRegisters hr h; exact ⟨rfl, rfl⟩
  case dclr => cases accept_update_of_ready State.emptyBuffer hr h; exact ⟨rfl, rfl⟩
  case rxchunk =>
    cases accept_update_of_ready (·.seedCrc.emptyBuffer.clearRx.goto .rxLen 0#32) hr h
    exact ⟨rfl, rfl⟩
  all_goals cases hi

theorem State.readBuffer_of_len_eq_zero {s : State} (h : s.len = 0#32) (i : Word) : s.readBuffer i = none :=
  if_neg (by rw [h]; exact BitVec.not_lt_zero)

/-- Settles O58: the one byte stored does not show at another address, and an emptied buffer shows none. -/
theorem commandsLeaveOtherBufferBytes : Obligations.CommandsLeaveOtherBufferBytes := by
  intro i s u h
  refine ⟨fun hi a ha => ?other, fun hi hr a => ?emptied⟩
  case other =>
    obtain hd | ⟨n, b, hn, hd⟩ | hempty := (exec_effect h).buffer_cases
    · rw [hd]
    · have hne : a ≠ n := by rintro rfl; exact ha hn
      rw [hd, Memory.read_write_other _ _ _ _ hne]
    · rw [hi] at hempty; cases hempty
  case emptied =>
    obtain ⟨hlen, hd⟩ := exec_empties_of_ready hi hr h
    exact ⟨by rw [hd]; rfl, State.readBuffer_of_len_eq_zero hlen _⟩

end Sys2Proof.Machine
end

section
/-! PROOFS, the encoding of the commands (30_encoding.md R70 to R78, R90): the decoder inverts the encoder, and the rows of
the opcode map say what it answers. Everything rests on `decode_eq_command_iff`: a word is a command exactly when its two
fields are that command's. -/

namespace Sys2Proof

/-! ### A word and its fields -/

/-- A word is its two fields and nothing else (R70). -/
theorem opField_append_immField (w : CmdWord) : opField w ++ immField w = w :=
  (BitVec.extractLsb'_append_extractLsb'_eq_extractLsb' (start₁ := 0) (len₁ := 8) rfl).trans
    BitVec.extractLsb'_eq_self

theorem encode_eq_append (i : Instr) : encode i = i.raw.op ++ i.raw.imm8 := by
  cases i <;> rfl

/-- The facts of `Laws.TableRow` for every command. -/
theorem tableRow (i : Instr) : Laws.TableRow.Statement i :=
  match i with
  | .nop => Laws.TableRow.nop
  | .eclr => Laws.TableRow.eclr
  | .srst => Laws.TableRow.srst
  | .cinit => Laws.TableRow.cinit
  | .cupd b => Laws.TableRow.cupd b
  | .ccalc => Laws.TableRow.ccalc
  | .ldt0 b => Laws.TableRow.ldt0 b
  | .ldt1 b => Laws.TableRow.ldt1 b
  | .ldt2 b => Laws.TableRow.ldt2 b
  | .ldt3 b => Laws.TableRow.ldt3 b
  | .dclr => Laws.TableRow.dclr
  | .dpush b => Laws.TableRow.dpush b
  | .sig => Laws.TableRow.sig
  | .emit => Laws.TableRow.emit
  | .rxsig => Laws.TableRow.rxsig
  | .rxchunk => Laws.TableRow.rxchunk
  | .rxb b => Laws.TableRow.rxb b
  | .rxeof => Laws.TableRow.rxeof

theorem Instr.wellFormed_eq_true (i : Instr) : i.wellFormed = true := (tableRow i).1

/-! ### What the decoder answers -/

/-- One row of `formatB` or `formatZ`: the command it answers has the opcode it tests for. -/
theorem raw_of_ite {op k b : Byte} {i j : Instr} {rest : Option Instr} (hj : j.raw = ⟨k, b⟩)
    (hrest : rest = some i → i.raw = ⟨op, b⟩) (h : (if op = k then some j else rest) = some i) : i.raw = ⟨op, b⟩ := by
  split_ifs at h with hop
  · cases h; rw [hop, hj]
  · exact hrest h

theorem raw_of_formatB {op b : Byte} {i : Instr} : formatB op b = some i → i.raw = ⟨op, b⟩ := by
  unfold formatB
  iterate 7 refine raw_of_ite rfl ?_
  exact nofun

theorem raw_of_formatZ {op : Byte} {i : Instr} : formatZ op = some i → i.raw = ⟨op, 0#8⟩ := by
  unfold formatZ
  iterate 11 refine raw_of_ite rfl ?_
  exact nofun

/-- A word decodes to a command exactly when its fields are the command's (R72, R77). -/
theorem decode_eq_command_iff {w : CmdWord} {i : Instr} :
    decode w = .command i ↔ i.raw = ⟨opField w, immField w⟩ := by
  constructor
  case mp =>
    intro h
    unfold decode at h
    split at h
    · next hb => cases h; exact raw_of_formatB hb
    · split at h
      · next hz =>
        split_ifs at h with himm
        cases h; rw [himm]; exact raw_of_formatZ hz
      · cases h
  case mpr =>
    intro h
    have hop : opField w = i.raw.op := by rw [h]
    have himm : immField w = i.raw.imm8 := by rw [h]
    rw [decode, hop, himm]
    cases i <;> rfl

theorem decode_encode (i : Instr) : decode (encode i) = .command i := by
  obtain ⟨-, hop, himm, -⟩ := tableRow i
  rw [decode_eq_command_iff, hop, himm]

theorem encode_of_decode {w : CmdWord} {i : Instr} (h : decode w = .command i) : encode i = w := by
  rw [encode_eq_append, decode_eq_command_iff.mp h, opField_append_immField]

/-! ### The rows of the opcode map (R72) -/

theorem nodup_mnemonics : (opcodeTable.map Row.mnemonic).Nodup := by decide

/-- The word of each row is a command of the row's name, and its mask is that of its format. -/
theorem opcodeTable_rows : ∀ row ∈ opcodeTable,
    (decode row.matchWord).instr?.map Instr.mnemonic = some row.mnemonic ∧
      (row.mask = 0xFFFF#16 ∨ row.mask = 0xFF00#16 ∧ opField row.matchWord ∈ opcodesB) := by
  decide

/-- The name of a format B command is in the opcode alone (R71). -/
theorem mnemonic_decode_congr {v w : CmdWord} (hop : opField w = opField v) (hv : opField v ∈ opcodesB) :
    (decode w).instr?.map Instr.mnemonic = (decode v).instr?.map Instr.mnemonic := by
  unfold decode
  rw [hop]
  generalize opField v = op at hv
  simp only [opcodesB, List.mem_cons, List.not_mem_nil, or_false] at hv
  obtain rfl | rfl | rfl | rfl | rfl | rfl | rfl := hv <;> rfl

theorem opField_eq_of_and_mask {w m : CmdWord} (h : w &&& 0xFF00#16 = m) : opField w = opField m := by
  rw [← h, ← opField_append_immField w, Laws.append_and_mask, (Laws.fields_append _ _).1, (Laws.fields_append _ _).1]

/-- A word that matches a row is a command of the row's name. -/
theorem exists_command_of_row {w : CmdWord} {row : Row} (hrow : row ∈ opcodeTable) (h : w &&& row.mask = row.matchWord) :
    ∃ i : Instr, decode w = .command i ∧ i.mnemonic = row.mnemonic := by
  obtain ⟨hname, hmask⟩ := opcodeTable_rows row hrow
  have hw : (decode w).instr?.map Instr.mnemonic = some row.mnemonic := by
    obtain hz | ⟨hb, hop⟩ := hmask
    · have hword : w = row.matchWord := by rw [← h, hz]; exact BitVec.and_allOnes.symm
      rw [hword, hname]
    · rw [← hname]
      exact mnemonic_decode_congr (opField_eq_of_and_mask (hb ▸ h)) hop
  cases hd : decode w with
  | command i => exact ⟨i, rfl, by simpa [hd, Verdict.instr?] using hw⟩
  | reserved why => simp [hd, Verdict.instr?] at hw

/-- A word that is a command matches a row of the command's name. -/
theorem exists_row_of_command {w : CmdWord} {i : Instr} (h : decode w = .command i) :
    ∃ row ∈ opcodeTable, row.mnemonic = i.mnemonic ∧ w &&& row.mask = row.matchWord := by
  obtain ⟨-, -, -, hrow⟩ := tableRow i
  rwa [encode_of_decode h] at hrow

theorem matches_row_iff {w : CmdWord} {row : Row} (hrow : row ∈ opcodeTable) :
    w &&& row.mask = row.matchWord ↔ ∃ i : Instr, decode w = .command i ∧ i.mnemonic = row.mnemonic := by
  refine ⟨exists_command_of_row hrow, fun ⟨i, hd, hi⟩ => ?_⟩
  obtain ⟨row', hrow', hname, hw⟩ := exists_row_of_command hd
  have : row' = row := List.inj_on_of_nodup_map nodup_mnemonics hrow' hrow (hname.trans hi)
  rwa [this] at hw

/-! ### The statements -/

/-- Settles O1: the fields of a command's word are the command's. -/
theorem decodeOfEncodeIsTheCommand : Obligations.DecodeOfEncodeIsTheCommand :=
  fun i _ => decode_encode i

/-- Settles O2: a word is its two fields, so the fields of the command give the whole word back. -/
theorem encodeOfDecodeIsTheWord : Obligations.EncodeOfDecodeIsTheWord :=
  fun _ i h => ⟨encode_of_decode h, i.wellFormed_eq_true⟩

/-- Settles O3: a matching word is a command of the row's name, and a command's word matches the only row of its name. -/
theorem wordsAreTheCommandsOfTheirRows : Obligations.WordsAreTheCommandsOfTheirRows :=
  ⟨rfl, fun _ _ hrow => matches_row_iff hrow⟩

/-- Settles O4: every command has a row, and a word that matched two rows would be a command of two names. -/
theorem reservedWordsMatchNoRow : Obligations.ReservedWordsMatchNoRow := by
  refine ⟨fun w => ⟨?noRow, ?reserved⟩, ?disjoint⟩
  case noRow =>
    rintro ⟨why, hd⟩ row hrow hw
    obtain ⟨i, hi, -⟩ := exists_command_of_row hrow hw
    cases hd.symm.trans hi
  case reserved =>
    intro hnone
    cases hd : decode w with
    | reserved why => exact ⟨why, rfl⟩
    | command i =>
      obtain ⟨row, hrow, -, hw⟩ := exists_row_of_command hd
      exact absurd hw (hnone row hrow)
  case disjoint =>
    refine (List.pairwise_map.mp nodup_mnemonics).imp_of_mem fun {a b} ha hb hne w ⟨hwa, hwb⟩ => hne ?_
    obtain ⟨i, hi, hia⟩ := exists_command_of_row ha hwa
    obtain ⟨j, hj, hjb⟩ := exists_command_of_row hb hwb
    cases hi.symm.trans hj
    exact hia.symm.trans hjb

/-- Settles O5: the decoder run on the twelve words. -/
theorem writtenOutWordsDecode : Obligations.WrittenOutWordsDecode := by
  unfold Obligations.WrittenOutWordsDecode
  decide

end Sys2Proof
end

section
/-! PROOFS, the assembler (30_encoding.md R90, R91): a program is the words of its lines' expansions. -/

namespace Sys2Proof.Machine

theorem expandLdt_isSome (tag : List Byte) : (expandLdt tag).isSome = (tag.length == 4) := by
  unfold expandLdt
  split
  · rfl
  · next h =>
    symm
    simpa [List.length_eq_four] using h

/-- A line has an expansion exactly when it is well formed: the only check is on the tag (R91). -/
theorem Source.expand_isSome (l : Source) : l.expand.isSome = l.wellFormed := by
  cases l with
  | ldt tag => exact expandLdt_isSome tag
  | chunk tag bytes => exact Option.isSome_map.trans (expandLdt_isSome tag)
  | command i => rfl
  | dload bytes => rfl
  | crcof bytes => rfl
  | rxbytes bytes => rfl

/-- An accepted program: every line expands, and the words are those of the expansions in order (R90). -/
theorem assemble_eq_some {ls : List Source} {ws : List CmdWord} (h : assemble ls = some ws) :
    (∀ l ∈ ls, l.wellFormed = true) ∧
      ∃ parts, ls.mapM Source.expand = some parts ∧ ws = parts.flatten.map encode := by
  induction ls generalizing ws with
  | nil => cases h; exact ⟨by simp, [], rfl, rfl⟩
  | cons l ls ih =>
    unfold assemble at h
    split at h
    · next p us hp hus =>
      cases h
      obtain ⟨hwf, parts, hparts, rfl⟩ := ih hus
      refine ⟨List.forall_mem_cons.mpr ⟨?_, hwf⟩, p :: parts, ?_, ?_⟩
      · rw [← l.expand_isSome, hp]; rfl
      · simp [List.mapM_cons, hp, hparts]
      · simp
    · cases h

/-- Settles O6: the words are the encoded expansions, and the decoder inverts the encoder. -/
theorem assembledWordsDecodeBack : Obligations.AssembledWordsDecodeBack := by
  intro ls ws h
  obtain ⟨hwf, parts, hparts, rfl⟩ := assemble_eq_some h
  refine ⟨hwf, parts, hparts, ?_⟩
  rw [List.map_map]
  exact List.map_congr_left fun i _ => decode_encode i

end Sys2Proof.Machine
end

section
/-! PROOFS, the step with a reserved word on the port (30_encoding.md R74, 60_exceptions.md R260). -/

namespace Sys2Proof.Machine

theorem step_of_reserved {s : State} {w : CmdWord} {ws : List CmdWord} {why : ReservedWord}
    (hr : s.resetReleased = true) (ha : s.phase.autonomous = false) (hw : s.words = w :: ws)
    (hd : decode w = .reserved why) : step s = acceptReserved { s with words := ws, rst := s.rst.tail } :=
  calc step s
      = runStep { s with rst := s.rst.tail } := step_of_resetReleased s hr
    _ = cmdStep w { s with words := ws, rst := s.rst.tail } := runStep_of_word _ w ws ha hw
    _ = acceptReserved { s with words := ws, rst := s.rst.tail } := by simp [cmdStep, hd]

/-- Settles O8: an accepted reserved word comes to `acceptReserved`; in an autonomous phase the port is held (O9). -/
theorem reservedWordRaisesIllegalCommand : Obligations.ReservedWordRaisesIllegalCommand := by
  intro s w ws why hr hw hd
  refine ⟨fun ha hn => ?raised, fun ha hn => ?dropped, fun ha u hu => ?held⟩
  case raised =>
    rw [step_of_reserved hr ha hw hd]
    simp [acceptReserved, ha, hn, State.raise]
  case dropped =>
    rw [step_of_reserved hr ha hw hd]
    simp [acceptReserved, ha, hn]
  case held =>
    obtain ⟨-, hkeep⟩ := autonomousPhaseHoldsTheCommand s hr ha
    exact (hkeep u hu).1.trans hw

end Sys2Proof.Machine
end

section
/-! PROOFS, the type flags (40_chunk_type.md R104 to R110): each is bit 5 of its byte of `T`, and a valid type's third byte is
an upper-case letter. -/

namespace Sys2Proof.Machine

/-- Bit 5 is the bit of weight 0x20. -/
theorem getLsbD_five_eq_false_iff (b : Byte) : b.getLsbD 5 = false ↔ b &&& 0x20#8 = 0#8 := by
  have hand : b &&& 0x20#8 = if b.getLsbD 5 then 0x20#8 else 0#8 := BitVec.and_twoPow b 5
  cases h : b.getLsbD 5 <;> simp only [hand, h] <;> decide

theorem getLsbD_five_eq_true_iff (b : Byte) : b.getLsbD 5 = true ↔ b &&& 0x20#8 ≠ 0#8 := by
  rw [ne_eq, ← getLsbD_five_eq_false_iff, Bool.not_eq_false]

theorem isLetter_iff (b : Byte) :
    isLetter b = true ↔ (0x41 ≤ b.toNat ∧ b.toNat ≤ 0x5A) ∨ (0x61 ≤ b.toNat ∧ b.toNat ≤ 0x7A) := by
  simp [isLetter, BitVec.le_def]

/-- The lower-case letters, 0x61 to 0x7A, all have bit 5 set (R110). -/
theorem upper_of_isLetter {b : Byte} (hb : isLetter b = true) (h5 : b.getLsbD 5 = false) :
    0x41 ≤ b.toNat ∧ b.toNat ≤ 0x5A := by
  have h5 : b.toNat / 2 ^ 5 % 2 ≠ 1 := by
    simpa only [BitVec.getLsbD, Nat.testBit_eq_decide_div_mod_eq, decide_eq_false_iff_not] using h5
  have hb := (isLetter_iff b).mp hb
  omega

theorem TypeReg.valid_iff (t : TypeReg) :
    t.valid = true ↔ (∀ b ∈ t.bytes, isLetter b = true) ∧ t.b2.getLsbD 5 = false := by
  simp [TypeReg.valid, TypeReg.bytes, TypeReg.rsvok, and_assoc]

/-- Settles O50: each flag is bit 5 of its byte, as it stands or complemented. -/
theorem typeFlagsAreBitFive : Obligations.TypeFlagsAreBitFive := by
  have clear (b : Byte) : (!b.getLsbD 5) = true ↔ b &&& 0x20#8 = 0#8 := by
    rw [Bool.not_eq_true', getLsbD_five_eq_false_iff]
  intro t
  exact ⟨clear t.b0, clear t.b1, getLsbD_five_eq_true_iff t.b1, (Bool.not_not _).symm, clear t.b2,
    getLsbD_five_eq_true_iff t.b3⟩

/-- Settles O51: the letters by their ranges, the reserved bit by its weight; bit 5 tells the two ranges apart. -/
theorem validTypesAreLettersWithReservedBitClear : Obligations.ValidTypesAreLettersWithReservedBitClear := by
  intro t
  constructor
  · simp only [t.valid_iff, isLetter_iff, getLsbD_five_eq_false_iff]
  · intro h
    obtain ⟨hletters, hreserved⟩ := t.valid_iff.mp h
    exact upper_of_isLetter (hletters t.b2 (by simp [TypeReg.bytes])) hreserved

end Sys2Proof.Machine
end

section
/-! PROOFS, the type register under the commands (40_chunk_type.md R100 to R103, R111): who loads it, and that it gates
nothing. -/

namespace Sys2Proof.Machine

/-! ### Loading `T` -/

/-- The rule of `LDTi` in a ready state (R100 to R103). -/
theorem accept_loadType_of_ready {s : State} (hr : s.Ready) (i : Fin 4) (b : Byte) :
    accept .idleOnly (fun v => .next (v.loadType i b)) s = .next { s with t := s.t.set i b } :=
  accept_ready _ _ _ hr.1 hr.2

/-- Settles O17: `LDTi` is the load of byte `i`, the dispatch letting it through. -/
theorem loadTypeByteCommands : Obligations.LoadTypeByteCommands := fun _ b hr =>
  ⟨accept_loadType_of_ready hr 0 b, accept_loadType_of_ready hr 1 b, accept_loadType_of_ready hr 2 b,
    accept_loadType_of_ready hr 3 b⟩

/-! ### `T` gates nothing: a rule answers the same, but for `T`, with another value in `T`

Each way a rule is put together from others keeps this, so it is proved of `exec` along the rules' definitions. -/

/-- With another value in `T` the rule `f` answers the same next state but for `T` (R111). -/
def TypeBlind (f : State → Result) : Prop :=
  ∀ (s u : State) (t : TypeReg), f s = .next u → ∃ t', f { s with t := t } = .next { u with t := t' }

namespace TypeBlind

/-- A state update that computes no other register from `T`. -/
theorem update (g : State → State) (hg : ∀ (s : State) (t : TypeReg), ∃ t', g { s with t := t } = { g s with t := t' }) :
    TypeBlind fun s => .next (g s) := by
  intro s u t h
  cases h
  obtain ⟨t', ht'⟩ := hg s t
  exact ⟨t', congrArg _ ht'⟩

/-- A state update that neither reads nor writes `T`. -/
theorem keep (g : State → State) (hg : ∀ (s : State) (t : TypeReg), g { s with t := t } = { g s with t := t }) :
    TypeBlind fun s => .next (g s) :=
  update g fun s t => ⟨t, hg s t⟩

theorem unchanged : TypeBlind .next := keep id fun _ _ => rfl

theorem raise (e : Err) : TypeBlind fun s => .next (s.raise e) := keep (·.raise e) fun _ _ => rfl

/-- A choice by a condition that does not look at `T`. -/
theorem ite {p : State → Prop} [DecidablePred p] {f g : State → Result}
    (hp : ∀ (s : State) (t : TypeReg), p { s with t := t } = p s) (hf : TypeBlind f) (hg : TypeBlind g) :
    TypeBlind fun s => if p s then f s else g s := by
  intro s u t h
  dsimp only at h ⊢
  by_cases hs : p s
  · rw [if_pos hs] at h
    simpa only [hp, if_pos hs] using hf s u t h
  · rw [if_neg hs] at h
    simpa only [hp, if_neg hs] using hg s u t h

/-- The dispatch (R78) looks at `PHASE` and `ERR` only. -/
theorem accept (l : Legality) {f : State → Result} (hf : TypeBlind f) : TypeBlind (accept l f) :=
  .ite (p := (·.phase.autonomous = true)) (fun _ _ => rfl) .unchanged <|
    .ite (p := (·.err ≠ .none)) (fun _ _ => rfl)
      (.ite (p := fun _ => l = .always) (fun _ _ => rfl) hf .unchanged) <|
      .ite (p := fun s => s.phase.waiting = true ∧ l = .idleOnly) (fun _ _ => rfl) (.raise _) hf

theorem withFieldByte {k : Byte → State → Result} (field : List Byte) (hk : ∀ b, TypeBlind (k b)) :
    TypeBlind fun s => withFieldByte field s fun b => k b s := by
  intro s u t h
  obtain ⟨b, hb, h⟩ := withFieldByte_next _ _ _ _ h
  simpa only [Machine.withFieldByte, hb] using hk b s u t h

theorem withTypeIndex {k : Fin 4 → State → Result} (hk : ∀ i, TypeBlind (k i)) :
    TypeBlind fun s => withTypeIndex s fun i => k i s := by
  intro s u t h
  obtain ⟨⟨n, hn⟩, rfl, h⟩ := withTypeIndex_next _ _ _ h
  simpa only [Machine.withTypeIndex, dif_pos hn] using hk _ s u t h

theorem withAppended {k : State → Result} (b : Byte) (hk : TypeBlind k) : TypeBlind fun s => withAppended s b k := by
  intro s u t h
  obtain ⟨hl, h⟩ := withAppended_next _ _ _ _ h
  obtain ⟨t', ht'⟩ := hk _ u t h
  exact ⟨t', (if_pos hl).trans ht'⟩

end TypeBlind

theorem rxbSig_typeBlind (b : Byte) : TypeBlind (rxbSig b) :=
  .withFieldByte _ fun want =>
    .ite (p := fun _ => b ≠ want) (fun _ _ => rfl) (.raise _) <|
      .ite (p := (·.idx < 7#32)) (fun _ _ => rfl) (.keep _ fun _ _ => rfl) (.keep _ fun _ _ => rfl)

theorem rxbLen_typeBlind (b : Byte) : TypeBlind (rxbLen b) :=
  .ite (p := (·.idx < 3#32)) (fun _ _ => rfl) (.keep _ fun _ _ => rfl) <|
    .ite (p := fun s => s.dataMax < shiftIn s.rxlen b) (fun _ _ => rfl) (.keep _ fun _ _ => rfl)
      (.keep _ fun _ _ => rfl)

/-- The one rule besides `LDT0` to `LDT3` that stores a byte of `T` (R165). -/
theorem rxbType_typeBlind (b : Byte) : TypeBlind (rxbType b) :=
  .withTypeIndex fun i =>
    .ite (p := (·.idx < 3#32)) (fun _ _ => rfl) (.update _ fun _ t => ⟨t.set i b, rfl⟩) <|
      .ite (p := (·.rxlen = 0#32)) (fun _ _ => rfl) (.update _ fun _ t => ⟨t.set i b, rfl⟩)
        (.update _ fun _ t => ⟨t.set i b, rfl⟩)

theorem rxbData_typeBlind (b : Byte) : TypeBlind (rxbData b) :=
  .withAppended b <| .ite (p := fun u => u.len = u.rxlen) (fun _ _ => rfl)
    (.keep (fun u => (u.foldByte b).goto .rxCrc 0#32) fun _ _ => rfl)
    (.keep (fun u => (u.foldByte b).goto .rxData (u.idx + 1#32)) fun _ _ => rfl)

theorem rxbCrc_typeBlind (b : Byte) : TypeBlind (rxbCrc b) :=
  .ite (p := (·.idx < 3#32)) (fun _ _ => rfl) (.keep _ fun _ _ => rfl) <|
    .ite (p := fun s => shiftIn s.rxcrc b ≠ crcFinal s.c) (fun _ _ => rfl) (.keep _ fun _ _ => rfl)
      (.keep _ fun _ _ => rfl)

theorem execRxb_typeBlind (b : Byte) : TypeBlind (execRxb b) := by
  refine .accept .anyPhase ?_
  rintro ⟨_, _, _, _, _, _, phase, _, _, _, _, _, _⟩ u t h
  cases phase with
  | idle => exact TypeBlind.raise .badSequence _ u t h
  | rxSig => exact rxbSig_typeBlind b _ u t h
  | rxLen => exact rxbLen_typeBlind b _ u t h
  | rxType => exact rxbType_typeBlind b _ u t h
  | rxData => exact rxbData_typeBlind b _ u t h
  | rxCrc => exact rxbCrc_typeBlind b _ u t h
  | txSig | txLen | txType | txData | txCrc | ccType | ccData => exact TypeBlind.unchanged _ u t h

theorem execRxeof_typeBlind : TypeBlind execRxeof := by
  refine .accept .anyPhase ?_
  rintro ⟨_, _, _, _, _, _, phase, _, _, _, _, _, _⟩ u t h
  cases phase with
  | rxSig => exact TypeBlind.raise .invalidSignature _ u t h
  | rxLen | rxType | rxData | rxCrc => exact TypeBlind.raise .unexpectedEof _ u t h
  | idle | txSig | txLen | txType | txData | txCrc | ccType | ccData => exact TypeBlind.unchanged _ u t h

theorem execDpush_typeBlind (b : Byte) : TypeBlind (execDpush b) :=
  .accept .idleOnly <|
    .ite (p := fun s => s.len = s.dataMax) (fun _ _ => rfl) (.raise .overflow) (.withAppended b .unchanged)

theorem exec_typeBlind (i : Instr) : TypeBlind (exec i) := by
  cases i with
  | nop => exact .accept .anyPhase .unchanged
  | eclr => exact .accept .always (.keep _ fun _ _ => rfl)
  | srst => exact .accept .always (.update _ fun _ _ => ⟨_, rfl⟩)
  | ldt0 b => exact .accept .idleOnly (.update _ fun _ t => ⟨t.set 0 b, rfl⟩)
  | ldt1 b => exact .accept .idleOnly (.update _ fun _ t => ⟨t.set 1 b, rfl⟩)
  | ldt2 b => exact .accept .idleOnly (.update _ fun _ t => ⟨t.set 2 b, rfl⟩)
  | ldt3 b => exact .accept .idleOnly (.update _ fun _ t => ⟨t.set 3 b, rfl⟩)
  | dpush b => exact execDpush_typeBlind b
  | rxb b => exact execRxb_typeBlind b
  | rxeof => exact execRxeof_typeBlind
  | cinit | cupd | ccalc | dclr | sig | emit | rxsig | rxchunk => exact .accept .idleOnly (.keep _ fun _ _ => rfl)

/-- Settles O52: no rule looks at `T` but to store a byte of it. -/
theorem typeGatesNoCommand : Obligations.TypeGatesNoCommand :=
  fun i s u t h => exec_typeBlind i s u t h

end Sys2Proof.Machine
end

section
/-! PROOFS, the frame of a sequencer step (40_chunk_type.md R114, 10_state.md R26): where it leaves `C` as well. -/

namespace Sys2Proof.Machine

/-- The bytes of the signature, the length and the crc are not folded into `C` (R145, R148, R182). -/
theorem seqStep_c_of_not_folded {s u : State} (hp : s.phase = .txSig ∨ s.phase = .txLen ∨ s.phase = .txCrc)
    (h : seqStep s = .next u) : u.c = s.c := by
  obtain hp | hp | hp := hp <;> simp only [seqStep, hp] at h
  · obtain ⟨b, -, p, i, rfl⟩ := seqTxSig_next h; rfl
  · obtain ⟨b, -, p, i, rfl⟩ := seqTxLen_next h; rfl
  · obtain ⟨b, -, p, i, rfl⟩ := seqTxCrc_next h; rfl

/-- Settles O59: a sequencer step emits, folds and jumps; in the phases named it does not fold, or does not emit. -/
theorem sequencerStepFrame : Obligations.SequencerStepFrame := by
  intro s u h
  have hc hp := seqStep_c_of_not_folded hp h
  have hout (hp : s.phase = .ccType ∨ s.phase = .ccData) : u.out = s.out := by
    refine seqStep_out_of_not_tx ?_ h
    obtain hp | hp := hp <;> simp [hp]
  obtain rfl | ⟨b, p, i, rfl | rfl | rfl⟩ := seqStep_cases h <;>
    exact ⟨rfl, rfl, rfl, rfl, rfl, rfl, rfl, rfl, rfl, hc, hout⟩

end Sys2Proof.Machine
end

section
/-! PROOFS, the CRC function (41_crc.md R122, R123, R129, R130). A round is linear over GF(2), and only 0 goes to 0; so
the byte update is linear, a bijection of the accumulator, and its table holds the rounds of the low byte alone. -/

namespace Sys2Proof.Machine

/-! ### Rounds (R122) -/

theorem crcRound_eq_xor (c : Word) : crcRound c = c >>> 1 ^^^ (if c.getLsbD 0 then crcPoly else 0#32) := by
  unfold crcRound
  split <;> simp

theorem crcRound_xor (a b : Word) : crcRound (a ^^^ b) = crcRound a ^^^ crcRound b := by
  have hpoly : (if (a ^^^ b).getLsbD 0 then crcPoly else 0#32) =
      (if a.getLsbD 0 then crcPoly else 0#32) ^^^ (if b.getLsbD 0 then crcPoly else 0#32) := by
    rw [BitVec.getLsbD_xor]
    cases a.getLsbD 0 <;> cases b.getLsbD 0 <;> simp
  simp only [crcRound_eq_xor, hpoly, BitVec.ushiftRight_xor_distrib]
  ac_rfl

/-- Bit 31 of the result tells the branch taken, since it is 1 in the polynomial and 0 after a shift (R122). -/
theorem eq_zero_of_crcRound_eq_zero {c : Word} (h : crcRound c = 0#32) : c = 0#32 := by
  have hbit (k : Nat) : (crcRound c).getLsbD k = false := by rw [h, BitVec.getLsbD_zero]
  unfold crcRound at hbit
  split at hbit
  case isTrue => simpa [crcPoly] using hbit 31
  case isFalse hlow =>
    refine BitVec.eq_of_getLsbD_eq fun k _ => ?_
    rw [BitVec.getLsbD_zero]
    cases k with
    | zero => exact Bool.eq_false_iff.mpr hlow
    | succ k => simpa [Nat.add_comm] using hbit k

theorem crcRound_injective : Function.Injective crcRound := by
  intro a b hab
  rw [← BitVec.xor_eq_zero_iff]
  exact eq_zero_of_crcRound_eq_zero (by rw [crcRound_xor, hab, BitVec.xor_self])

theorem crcRounds_xor (n : Nat) (a b : Word) : crcRounds n (a ^^^ b) = crcRounds n a ^^^ crcRounds n b := by
  induction n generalizing a b with
  | zero => rfl
  | succ n ih => rw [crcRounds, crcRound_xor, ih, crcRounds, crcRounds]

theorem crcRounds_injective (n : Nat) : Function.Injective (crcRounds n) := by
  induction n with
  | zero => exact Function.injective_id
  | succ n ih => exact ih.comp crcRound_injective

/-- As long as the bits shifted out are 0, the rounds are a shift. -/
theorem crcRounds_eq_shift (n : Nat) (c : Word) (h : ∀ k < n, c.getLsbD k = false) : crcRounds n c = c >>> n := by
  induction n generalizing c with
  | zero => rfl
  | succ n ih =>
    have hround : crcRound c = c >>> 1 := if_neg (by simp only [h 0 n.succ_pos, Bool.false_eq_true, not_false_eq_true])
    have hlow : ∀ k < n, (c >>> 1).getLsbD k = false := fun k hk => by
      simpa [Nat.add_comm] using h (k + 1) (Nat.succ_lt_succ hk)
    rw [crcRounds, hround, ih _ hlow, ← BitVec.shiftRight_add, Nat.add_comm]

/-! ### The byte update (R122) -/

theorem crcUpd_injective_left (b : Byte) : Function.Injective fun c => crcUpd c b := fun _ _ h =>
  (BitVec.xor_left_inj _).mp (crcRounds_injective 8 h)

theorem crcUpd_injective_right (c : Word) : Function.Injective (crcUpd c) := fun a b h => by
  have hwide : a.setWidth 32 = b.setWidth 32 := (BitVec.xor_right_inj c).mp (crcRounds_injective 8 h)
  simpa using congrArg (BitVec.setWidth 8) hwide

/-- Settles O46: the zero-extension and the rounds are linear. -/
theorem crcUpdateIsLinear : Obligations.CrcUpdateIsLinear := by
  intro c1 c2 b1 b2
  have hpair : c1 ^^^ c2 ^^^ (b1 ^^^ b2).setWidth 32 = (c1 ^^^ b1.setWidth 32) ^^^ (c2 ^^^ b2.setWidth 32) := by
    rw [BitVec.setWidth_xor]
    ac_rfl
  rw [crcUpd, hpair, crcRounds_xor, crcUpd, crcUpd]

/-- Settles O47: an injection of the 32-bit values, of which there are finitely many. -/
theorem crcUpdateIsBijective : Obligations.CrcUpdateIsBijective := fun b =>
  Finite.injective_iff_bijective.mp (crcUpd_injective_left b)

/-! ### The table (R129) -/

theorem crcTable_eq_map : crcTable = (List.range 256).map fun i => crcUpd 0#32 (BitVec.ofNat 8 i) := by decide +kernel

theorem crcTable_getElem? {i : Nat} (h : i < 256) : crcTable[i]? = some (crcUpd 0#32 (BitVec.ofNat 8 i)) := by
  simp [crcTable_eq_map, List.getElem?_range h]

theorem crcTable_getElem?_byte (b : Byte) : crcTable[(b.setWidth 32).toNat]? = some (crcUpd 0#32 b) := by
  have hb : (b.setWidth 32).toNat = b.toNat := BitVec.toNat_setWidth_of_le (by decide)
  rw [hb, crcTable_getElem? b.isLt, BitVec.ofNat_toNat, BitVec.setWidth_eq]

theorem and_255_eq_low_byte (x : Word) : x &&& 0xFF#32 = (x.setWidth 8).setWidth 32 := by
  refine BitVec.eq_of_toNat_eq ?_
  rw [BitVec.toNat_setWidth_of_le (by decide), BitVec.toNat_setWidth, BitVec.toNat_and]
  exact Nat.and_two_pow_sub_one_eq_mod x.toNat 8

theorem byte_shiftRight_eight (b : Byte) : b.setWidth 32 >>> 8 = 0#32 := by
  ext k hk
  simp

/-- The rounds of a value but for its low byte are a shift, so those of the low byte are the rest. -/
theorem crcRounds_low_byte (x : Word) : crcRounds 8 ((x.setWidth 8).setWidth 32) = crcRounds 8 x ^^^ x >>> 8 := by
  have hlow : ∀ k < 8, (x ^^^ (x.setWidth 8).setWidth 32).getLsbD k = false := fun k hk => by
    simp [hk, show k < 32 by omega]
  have hup : crcRounds 8 x ^^^ crcRounds 8 ((x.setWidth 8).setWidth 32) = x >>> 8 := by
    rw [← crcRounds_xor, crcRounds_eq_shift 8 _ hlow, BitVec.ushiftRight_xor_distrib, byte_shiftRight_eight,
      BitVec.xor_zero]
  rw [← hup, ← BitVec.xor_assoc, BitVec.xor_self, BitVec.zero_xor]

/-- Settles O45: the entries one by one; the one selected holds the rounds of the low byte, where `b` falls whole. -/
theorem crcTableDrivenForm : Obligations.CrcTableDrivenForm := by
  refine ⟨by simp [crcTable_eq_map], fun _ hi => crcTable_getElem? hi, fun c b => ?_⟩
  have hshift : (c ^^^ b.setWidth 32) >>> 8 = c >>> 8 := by
    rw [BitVec.ushiftRight_xor_distrib, byte_shiftRight_eight, BitVec.xor_zero]
  rw [and_255_eq_low_byte, crcTable_getElem?_byte, crcUpd, BitVec.zero_xor, crcRounds_low_byte, hshift, crcUpd]

/-! ### The fold over a sequence (R123, R130) -/

theorem crcFold_append (c : Word) (xs ys : List Byte) : crcFold c (xs ++ ys) = crcFold (crcFold c xs) ys :=
  List.foldl_append

theorem crcFold_injective (bs : List Byte) : Function.Injective fun c => crcFold c bs := by
  induction bs with
  | nil => exact Function.injective_id
  | cons b bs ih => exact ih.comp (crcUpd_injective_left b)

theorem crcRaw_concat (xs : List Byte) (b : Byte) : crcRaw (xs ++ [b]) = crcUpd (crcRaw xs) b :=
  crcFold_append _ _ _

theorem crcRaw_take_succ {bs : List Byte} {k : Nat} {b : Byte} (h : bs[k]? = some b) :
    crcRaw (bs.take (k + 1)) = crcUpd (crcRaw (bs.take k)) b := by
  rw [List.take_add_one, h, Option.toList_some, crcRaw_concat]

theorem crcFinal_injective : Function.Injective crcFinal := fun _ _ h => (BitVec.xor_left_inj _).mp h

/-- Settles O48: undo the final XOR, the bytes after the changed one, and its update. -/
theorem crcDetectsOneChangedByte : Obligations.CrcDetectsOneChangedByte := by
  intro xs ys a b hab h
  have hraw : crcRaw (xs ++ a :: ys) = crcRaw (xs ++ b :: ys) := crcFinal_injective h
  simp only [crcRaw, crcFold_append] at hraw
  exact hab (crcUpd_injective_right _ (crcFold_injective ys hraw))

/-- Settles O49: the laws of the fold, and the four values computed. -/
theorem crcLawsAndValues : Obligations.CrcLawsAndValues :=
  ⟨rfl, crcRaw_concat, fun _ => rfl, by decide +kernel⟩

end Sys2Proof.Machine
end

section
/-! PROOFS, the commands of the CRC unit (41_crc.md R124 to R128): a byte sequence fed by `CUPD`, and the run of `CCALC`,
whose state after each number of steps is written out. -/

namespace Sys2Proof.Machine

/-! ### Runs of the machine -/

theorem run_succ_of_step {s u : State} (n : Nat) (h : step s = .next u) :
    Sys2Proof.core.run (n + 1) s = Sys2Proof.core.run n u := by
  simp [Host.Core.run, Sys2Proof.core, h]

/-- A run whose states are known one after the other. -/
theorem run_of_steps (f : Nat → State) (n : Nat) (h : ∀ k < n, step (f k) = .next (f (k + 1))) :
    Sys2Proof.core.run n (f 0) = .next (f n) := by
  induction n generalizing f with
  | zero => rfl
  | succ n ih =>
    rw [run_succ_of_step n (h 0 n.succ_pos)]
    exact ih (fun k => f (k + 1)) fun k hk => h (k + 1) (Nat.succ_lt_succ hk)

theorem resetReleased_of_rst_eq_nil {s : State} (h : s.rst = []) : s.resetReleased = true := by
  simp [State.resetReleased, h]

theorem rst_tail_eq_self {s : State} (h : s.rst = []) : ({ s with rst := s.rst.tail } : State) = s := by
  cases s
  cases h
  rfl

/-- With no reset to come, the step in an autonomous phase is the sequencer's (R15). -/
theorem step_of_autonomous {s : State} (hr : s.rst = []) (ha : s.phase.autonomous = true) : step s = seqStep s := by
  rw [(autonomousPhaseHoldsTheCommand s (resetReleased_of_rst_eq_nil hr) ha).1, rst_tail_eq_self hr]

/-- With no reset to come, a ready state performs the command on the port (R15, R78). -/
theorem step_of_encode {s u : State} {i : Instr} {ws : List CmdWord} (hs : s.Ready) (hr : s.rst = [])
    (hw : s.words = encode i :: ws) (h : exec i { s with words := ws } = .next u) : step s = .next u := by
  have ha : s.phase.autonomous = false := by rw [hs.1]; rfl
  have hsame : ({ s with words := ws, rst := s.rst.tail } : State) = { s with words := ws } :=
    rst_tail_eq_self (s := { s with words := ws }) hr
  rw [stepRunsTheDecodedCommand s _ ws i (resetReleased_of_rst_eq_nil hr) ha hw (decode_encode i) i.wellFormed_eq_true,
    hsame, h]

/-! ### `CINIT` and `CUPD` (R124, R125) -/

theorem exec_cinit_of_ready {s : State} (h : s.Ready) : exec .cinit s = .next s.seedCrc :=
  accept_ready .idleOnly (fun s => .next s.seedCrc) s h.1 h.2

theorem exec_cupd_of_ready {s : State} (b : Byte) (h : s.Ready) : exec (.cupd b) s = .next (s.foldByte b) :=
  accept_ready .idleOnly (fun s => .next (s.foldByte b)) s h.1 h.2

/-- One `CUPD` per byte folds the bytes into `C`. -/
theorem run_cupds (bs : List Byte) {s : State} (hs : s.Ready) (hr : s.rst = [])
    (hw : s.words = (bs.map Instr.cupd).map encode) :
    Sys2Proof.core.run bs.length s = .next { s with c := crcFold s.c bs, words := [] } := by
  induction bs generalizing s with
  | nil =>
    cases s
    cases hw
    rfl
  | cons b bs ih =>
    have hstep : step s = .next (State.foldByte { s with words := (bs.map Instr.cupd).map encode } b) :=
      step_of_encode hs hr hw (exec_cupd_of_ready b hs)
    rw [List.length_cons, run_succ_of_step _ hstep]
    exact ih hs hr rfl

/-- Settles O18: the two rules, and the run of the words one after the other. -/
theorem crcUnitCommands : Obligations.CrcUnitCommands := by
  refine ⟨fun _ => exec_cinit_of_ready, fun _ => exec_cupd_of_ready, fun s bs hs hr => ⟨_, ?_, rfl, rfl⟩⟩
  have hstep : step { s with words := (Instr.cinit :: bs.map .cupd).map encode } =
      .next (State.seedCrc { s with words := (bs.map Instr.cupd).map encode }) :=
    step_of_encode hs hr rfl (exec_cinit_of_ready hs)
  rw [run_succ_of_step _ hstep]
  exact run_cupds bs hs hr rfl

/-! ### The sequencer steps of `CCALC` (R127, R128) -/

theorem withFieldByte_of_getElem? {field : List Byte} {s : State} {b : Byte} (k : Byte → Result)
    (h : field[s.idx.toNat]? = some b) : withFieldByte field s k = k b := by
  simp [withFieldByte, h]

theorem withBufferByte_of_readBuffer {s : State} {b : Byte} (k : Byte → Result) (h : s.readBuffer s.idx = some b) :
    withBufferByte s k = k b := by
  simp [withBufferByte, h]

/-- The buffer read port refuses an index at or above `LEN` (R52). -/
theorem lt_len_of_readBuffer {s : State} {i : Word} {b : Byte} (h : s.readBuffer i = some b) : i < s.len := by
  by_contra hge
  simp [State.readBuffer, hge] at h

/-- Settles O28: the byte is there, and each branch of the rule is one of the two conditions' cases. -/
theorem crcStepsFoldOneByte : Obligations.CrcStepsFoldOneByte := by
  constructor
  · intro s b hp hb
    have hidx : s.idx < 3#32 ↔ s.idx.toNat < 3 := BitVec.lt_def
    simp only [seqStep, hp, seqCcType, withFieldByte_of_getElem? _ hb, hidx]
    split_ifs <;> rfl
  · intro s b hp hb
    have hlast : s.idx + 1#32 = s.len ↔ s.idx.toNat + 1 = s.len.toNat := by
      have hlt : s.idx < s.len := lt_len_of_readBuffer hb
      bv_omega
    simp only [seqStep, hp, seqCcData, withBufferByte_of_readBuffer _ hb, hlast]
    split_ifs <;> rfl

/-! ### The run of `CCALC` (R126) -/

/-- The payload follows the four bytes of the type. -/
theorem bytes_append_getElem?_four_add (t : TypeReg) (bs : List Byte) (k : Nat) : (t.bytes ++ bs)[4 + k]? = bs[k]? := by
  rw [Nat.add_comm]
  rfl

/-- `PHASE` and `IDX` after `k` of the `4 + LEN` steps of `CCALC`. -/
def ccalcPosition (len : Word) (k : Nat) : Phase × Word :=
  if k < 4 then (.ccType, BitVec.ofNat 32 k)
  else if k < 4 + len.toNat then (.ccData, BitVec.ofNat 32 (k - 4))
  else (.idle, 0#32)

/-- The state after `k` of the `4 + LEN` steps of `CCALC`, where `s` is the state the command was performed in. -/
def ccalcState (s : State) (k : Nat) : State :=
  { s with
    c := crcRaw ((s.t.bytes ++ s.payload).take k)
    phase := (ccalcPosition s.len k).1
    idx := (ccalcPosition s.len k).2 }

theorem ccalcPosition_type (len : Word) {k : Nat} (h : k < 4) : ccalcPosition len k = (.ccType, BitVec.ofNat 32 k) :=
  if_pos h

theorem ccalcPosition_data {len : Word} {k : Nat} (h : k < len.toNat) :
    ccalcPosition len (4 + k) = (.ccData, BitVec.ofNat 32 k) := by
  simp [ccalcPosition, h]

theorem ccalcPosition_end (len : Word) : ccalcPosition len (4 + len.toNat) = (.idle, 0#32) := by
  simp [ccalcPosition]

/-- The jump of R127. -/
theorem ccalcPosition_succ_type (len : Word) {k : Nat} (h : k < 4) :
    ccalcPosition len (k + 1) =
      (if k < 3 then .ccType else if len = 0#32 then .idle else .ccData,
       if k < 3 then BitVec.ofNat 32 k + 1#32 else 0#32) := by
  obtain hk | rfl : k < 3 ∨ k = 3 := by omega
  · rw [ccalcPosition_type _ (by omega), if_pos hk, if_pos hk, BitVec.ofNat_add]
  · obtain rfl | hl := eq_or_ne len 0#32
    · exact ccalcPosition_end 0#32
    · rw [if_neg hl]
      exact ccalcPosition_data (k := 0) (by bv_omega)

/-- The jump of R128. -/
theorem ccalcPosition_succ_data {len : Word} {k : Nat} (h : k < len.toNat) :
    ccalcPosition len (4 + k + 1) =
      (if k + 1 = len.toNat then .idle else .ccData,
       if k + 1 = len.toNat then 0#32 else BitVec.ofNat 32 k + 1#32) := by
  rw [Nat.add_assoc]
  split_ifs with hk
  · rw [hk, ccalcPosition_end]
  · rw [ccalcPosition_data (by omega), BitVec.ofNat_add]

theorem ccalcState_succ {s : State} {k : Nat} {b : Byte} {p : Phase} {i : Word}
    (hb : (s.t.bytes ++ s.payload)[k]? = some b) (hp : ccalcPosition s.len (k + 1) = (p, i)) :
    ccalcState s (k + 1) = { ccalcState s k with c := crcUpd (ccalcState s k).c b, phase := p, idx := i } := by
  simp only [ccalcState, crcRaw_take_succ hb, hp]

theorem seqStep_ccalcState_type (s : State) {k : Nat} (hk : k < 4) :
    seqStep (ccalcState s k) = .next (ccalcState s (k + 1)) := by
  have hpos := ccalcPosition_type s.len hk
  have hi : (ccalcState s k).idx = BitVec.ofNat 32 k := congrArg Prod.snd hpos
  have hidx : (ccalcState s k).idx.toNat = k := by rw [hi, BitVec.toNat_ofNat, Nat.mod_eq_of_lt (by omega)]
  have hb : s.t.bytes[k]? = some s.t.bytes[k] := List.getElem?_eq_getElem hk
  rw [crcStepsFoldOneByte.1 (ccalcState s k) _ (congrArg Prod.fst hpos) (by rw [hidx]; exact hb),
    ccalcState_succ (by rwa [List.getElem?_append_left hk]) (ccalcPosition_succ_type s.len hk), hidx, hi]
  rfl

theorem seqStep_ccalcState_data {s : State} (hs : s.Inv) {k : Nat} (hk : k < s.len.toNat) :
    seqStep (ccalcState s (4 + k)) = .next (ccalcState s (4 + k + 1)) := by
  have hpos := ccalcPosition_data hk
  have hi : (ccalcState s (4 + k)).idx = BitVec.ofNat 32 k := congrArg Prod.snd hpos
  have hidx : (ccalcState s (4 + k)).idx.toNat = k := by rw [hi, BitVec.toNat_ofNat, Nat.mod_eq_of_lt (by omega)]
  have hlt : (ccalcState s (4 + k)).idx < s.len := by rw [BitVec.lt_def, hidx]; exact hk
  obtain ⟨b, hread⟩ := hs.exists_readBuffer hlt
  have hb : (s.t.bytes ++ s.payload)[4 + k]? = some b := by
    rw [bytes_append_getElem?_four_add, ← hread, hs.readBuffer_eq hlt, hidx]
  rw [crcStepsFoldOneByte.2 (ccalcState s (4 + k)) b (congrArg Prod.fst hpos) hread,
    ccalcState_succ hb (ccalcPosition_succ_data hk), hidx, hi]
  rfl

theorem ccalcState_autonomous (s : State) {k : Nat} (hk : k < 4 + s.len.toNat) :
    (ccalcState s k).phase.autonomous = true := by
  by_cases h : k < 4 <;> simp [ccalcState, ccalcPosition, h, hk, Phase.autonomous]

theorem run_ccalcState {s : State} (hs : s.Inv) (hr : s.rst = []) {n : Nat} (hn : n ≤ 4 + s.len.toNat) :
    Sys2Proof.core.run n (ccalcState s 0) = .next (ccalcState s n) := by
  refine run_of_steps (ccalcState s) n fun k hk => ?_
  rw [step_of_autonomous (s := ccalcState s k) hr (ccalcState_autonomous s (by omega))]
  obtain h | ⟨i, rfl⟩ : k < 4 ∨ ∃ i, k = 4 + i := (lt_or_ge k 4).imp_right Nat.exists_eq_add_of_le
  · exact seqStep_ccalcState_type s h
  · exact seqStep_ccalcState_data hs (by omega)

/-- After its last step `CCALC` has folded all bytes, and `IDLE` is the phase it was performed in. -/
theorem ccalcState_end {s : State} (hs : s.Inv) (hp : s.phase = .idle) :
    ccalcState s (4 + s.len.toNat) = { s with c := crcRaw (s.t.bytes ++ s.payload) } := by
  have hall : (s.t.bytes ++ s.payload).take (4 + s.len.toNat) = s.t.bytes ++ s.payload :=
    List.take_of_length_le (by rw [List.length_append, hs.payload_length]; rfl)
  simp [ccalcState, hall, ccalcPosition_end, ← hp, ← hs.idx_eq_zero hp]

theorem exec_ccalc_of_ready {s : State} (h : s.Ready) : exec .ccalc s = .next (ccalcState s 0) :=
  accept_ready .idleOnly (fun s => .next (s.seedCrc.goto .ccType 0#32)) s h.1 h.2

/-- Settles O31: the command step, and the run to its last state. -/
theorem ccalcComputesTheChunkCrc : Obligations.CcalcComputesTheChunkCrc := by
  intro s hs hready hr
  refine ⟨_, _, exec_ccalc_of_ready hready, rfl, ?_, rfl, rfl⟩
  rw [run_ccalcState hs hr le_rfl, ccalcState_end hs hready.1]

end Sys2Proof.Machine
end

section
/-! PROOFS, the accumulator while an operation is in progress (42_framer.md R150, 10_state.md R22): a step that moves a type
or payload byte folds exactly that byte into `C`, and every other step in progress leaves `C` and the bytes moved. -/

namespace Sys2Proof.Machine

section
variable {s u : State} {b : Byte}

/-! ### A byte stored -/

theorem TypeReg.set_bytes (t : TypeReg) (k : Fin 4) (b : Byte) : (t.set k b).bytes = t.bytes.set k b := by
  fin_cases k <;> rfl

theorem TypeReg.set_bytes_getElem? (t : TypeReg) (k : Fin 4) (b : Byte) : (t.set k b).bytes[k.val]? = some b := by
  rw [TypeReg.set_bytes]
  exact List.getElem?_set_self k.isLt

/-- Storing `T[k]` leaves the bytes before it. -/
theorem TypeReg.set_bytes_take (t : TypeReg) (k : Fin 4) (b : Byte) : (t.set k b).bytes.take k = t.bytes.take k := by
  rw [TypeReg.set_bytes, List.take_set_of_le le_rfl]

theorem State.payload_of_len_eq_zero (h : s.len = 0#32) : s.payload = [] := by
  simp [State.payload, h]

/-- An appended byte is the last of the payload (R53). -/
theorem State.Inv.payload_appendByte (hs : s.Inv) (hl : s.len < s.dataMax) (b : Byte) :
    (s.appendByte b).payload = s.payload ++ [b] := by
  have happ : (s.appendByte b).d = s.d ++ [(s.len.toNat, b)] := Memory.write_range _ _ _ hs.buffer
  rw [State.payload_eq _ (hs.bufferOk.append hl b).buffer, happ, List.map_append, ← s.payload_eq hs.buffer]
  rfl

/-! ### A byte folded -/

/-- A type byte before the last. -/
theorem crcUpd_type_more {t : TypeReg} {c i : Word} (hc : c = crcRaw (t.bytes.take i.toNat))
    (hb : t.bytes[i.toNat]? = some b) (hi : i < 3#32) : crcUpd c b = crcRaw (t.bytes.take (i + 1#32).toNat) := by
  have hnext : (i + 1#32).toNat = i.toNat + 1 := by bv_omega
  rw [hc, hnext, crcRaw_take_succ hb]

/-- The last type byte completes the type, with no payload byte moved yet. -/
theorem crcUpd_type_last {t : TypeReg} {c i : Word} {moved : List Byte} (hc : c = crcRaw (t.bytes.take i.toNat))
    (hb : t.bytes[i.toNat]? = some b) (hi : ¬ i < 3#32) (hm : moved = []) :
    crcUpd c b = crcRaw (t.bytes ++ moved) := by
  have hall : t.bytes.take (i.toNat + 1) = t.bytes := List.take_of_length_le (show 4 ≤ i.toNat + 1 by bv_omega)
  rw [hc, ← crcRaw_take_succ hb, hall, hm, List.append_nil]

/-- The payload byte that the sequencer reads. -/
theorem crcUpd_payload (hs : s.Inv) (hc : s.c = crcRaw (s.t.bytes ++ s.payload.take s.idx.toNat))
    (hb : s.readBuffer s.idx = some b) :
    crcUpd s.c b = crcRaw (s.t.bytes ++ s.payload.take (s.idx.toNat + 1)) := by
  have hget : s.payload[s.idx.toNat]? = some b := (hs.readBuffer_eq (lt_len_of_readBuffer hb)).symm.trans hb
  rw [hc, List.take_add_one, hget, Option.toList_some, ← List.append_assoc, crcRaw_concat]

theorem crcUpd_payload_more (hs : s.Inv) (hc : s.c = crcRaw (s.t.bytes ++ s.payload.take s.idx.toNat))
    (hb : s.readBuffer s.idx = some b) :
    crcUpd s.c b = crcRaw (s.t.bytes ++ s.payload.take (s.idx + 1#32).toNat) := by
  have hlt : s.idx < s.len := lt_len_of_readBuffer hb
  have hnext : (s.idx + 1#32).toNat = s.idx.toNat + 1 := by bv_omega
  rw [hnext, crcUpd_payload hs hc hb]

/-- The last payload byte completes the payload. -/
theorem crcUpd_payload_last (hs : s.Inv) (hc : s.c = crcRaw (s.t.bytes ++ s.payload.take s.idx.toNat))
    (hb : s.readBuffer s.idx = some b) (hl : s.idx + 1#32 = s.len) :
    crcUpd s.c b = crcRaw (s.t.bytes ++ s.payload) := by
  have hlt : s.idx < s.len := lt_len_of_readBuffer hb
  have hall : s.payload.take (s.idx.toNat + 1) = s.payload :=
    List.take_of_length_le (by rw [hs.payload_length]; bv_omega)
  rw [crcUpd_payload hs hc hb, hall]

/-! ### What `C` holds in a reception, by phase (R22, R167) -/

theorem State.CrcTracks.at_rxLen (h : s.CrcTracks) (hp : s.phase = .rxLen) : s.c = crcRaw [] := by
  simpa only [State.CrcTracks, hp] using h

theorem State.CrcTracks.at_rxType (h : s.CrcTracks) (hp : s.phase = .rxType) :
    s.c = crcRaw (s.t.bytes.take s.idx.toNat) := by
  simpa only [State.CrcTracks, hp] using h

theorem State.CrcTracks.at_payload (h : s.CrcTracks) (hp : s.phase = .rxData ∨ s.phase = .rxCrc) :
    s.c = crcRaw (s.t.bytes ++ s.payload) := by
  obtain hp | hp := hp <;> simpa only [State.CrcTracks, hp] using h

theorem crcTracks_of_idle (hp : s.phase = .idle) : s.CrcTracks := by
  simp [State.CrcTracks, hp]

/-- `C` after a type byte received at its place: the place's old byte is not among those moved so far. -/
theorem State.CrcTracks.stored_type (h : s.CrcTracks) (hp : s.phase = .rxType) {k : Fin 4} (hk : k.val = s.idx.toNat) :
    s.c = crcRaw ((s.t.set k b).bytes.take s.idx.toNat) ∧ (s.t.set k b).bytes[s.idx.toNat]? = some b := by
  rw [← hk, TypeReg.set_bytes_take, hk]
  exact ⟨h.at_rxType hp, hk ▸ s.t.set_bytes_getElem? k b⟩

/-- `C` after a payload byte received. -/
theorem State.CrcTracks.appended (h : s.CrcTracks) (hs : s.Inv) (hp : s.phase = .rxData) (hl : s.len < s.dataMax) :
    crcUpd s.c b = crcRaw (s.t.bytes ++ (s.appendByte b).payload) := by
  rw [hs.payload_appendByte hl, ← List.append_assoc, crcRaw_concat, ← h.at_payload (.inl hp)]

/-! ### Steps -/

theorem seqStep_keeps_crcTracks (hs : s.Inv) (hc : s.CrcTracks) (ha : s.phase.autonomous = true)
    (h : seqStep s = .next u) : u.CrcTracks := by
  cases hp : s.phase <;> simp only [hp, Phase.autonomous, Bool.false_eq_true] at ha <;>
    simp only [seqStep, hp] at h <;> simp only [State.CrcTracks, hp] at hc
  case txSig =>
    obtain ⟨b, -, h⟩ := withFieldByte_next _ _ _ _ h
    split_ifs at h <;> cases h <;> exact trivial
  case txLen =>
    obtain ⟨b, -, h⟩ := withFieldByte_next _ _ _ _ h
    split_ifs at h <;> cases h <;> exact hc
  case txType =>
    obtain ⟨b, hb, h⟩ := withFieldByte_next _ _ _ _ h
    split_ifs at h with hi hl <;> cases h
    · exact crcUpd_type_more hc hb hi
    · exact crcUpd_type_last hc hb hi (State.payload_of_len_eq_zero hl)
    · exact crcUpd_type_last hc hb hi (moved := s.payload.take 0) rfl
  case txData =>
    obtain ⟨b, hb, h⟩ := withBufferByte_next _ _ _ h
    split_ifs at h with hl <;> cases h
    · exact crcUpd_payload_last (s := s) hs hc hb hl
    · exact crcUpd_payload_more (s := s) hs hc hb
  case txCrc =>
    obtain ⟨b, -, h⟩ := withFieldByte_next _ _ _ _ h
    split_ifs at h <;> cases h
    · exact hc
    · exact trivial
  case ccType =>
    obtain ⟨b, hb, h⟩ := withFieldByte_next _ _ _ _ h
    split_ifs at h with hi hl <;> cases h
    · exact crcUpd_type_more hc hb hi
    · exact trivial
    · exact crcUpd_type_last hc hb hi (moved := s.payload.take 0) rfl
  case ccData =>
    obtain ⟨b, hb, h⟩ := withBufferByte_next _ _ _ h
    split_ifs at h with hl <;> cases h
    · exact trivial
    · exact crcUpd_payload_more hs hc hb

theorem CommandEffect.keeps_crcTracks {i : Instr} (h : CommandEffect s i u) (hs : s.Inv) (hc : s.CrcTracks) :
    u.CrcTracks := by
  cases h
  case unchanged | eclr => exact hc
  case cinit hr | cupd hr | ldt0 hr | ldt1 hr | ldt2 hr | ldt3 hr | dclr hr | dpush hr _ =>
    exact crcTracks_of_idle hr.1
  case ccalc | emit | rxchunk => exact rfl
  case rxbLenMore hp _ _ | rxbLenLast hp _ _ _ => exact hc.at_rxLen hp
  case rxbTypeMore k hk hp _ hi =>
    obtain ⟨hc, hb⟩ := hc.stored_type hp hk
    exact crcUpd_type_more hc hb hi
  case rxbTypeLastEmpty k hk hp _ hi _ | rxbTypeLast k hk hp _ hi _ =>
    obtain ⟨hc, hb⟩ := hc.stored_type hp hk
    exact crcUpd_type_last hc hb hi (State.payload_of_len_eq_zero (hs.at_rxType hp).1)
  case rxbDataMore hp _ hl _ | rxbDataLast hp _ hl _ => exact hc.appended hs hp hl
  case rxbCrcMore hp _ _ => exact hc.at_payload (.inr hp)
  all_goals exact trivial

theorem cmdStep_keeps_crcTracks {w : CmdWord} (hs : s.Inv) (hc : s.CrcTracks) (h : cmdStep w s = .next u) :
    u.CrcTracks := by
  obtain rfl | ⟨-, rfl⟩ | ⟨i, -, he⟩ := cmdStep_cases h
  · exact hc
  · exact trivial
  · exact he.keeps_crcTracks hs hc

theorem resetStep_keeps_crcTracks (withdraw : Bool) (s : State) : (resetStep withdraw s).CrcTracks := by
  cases withdraw <;> exact trivial

end

/-- Settles O41, by the kind of step: reset, sequencer, wait, command. -/
theorem everyStepKeepsTheCrcConsistent : Obligations.EveryStepKeepsTheCrcConsistent := by
  intro s u hs hc h
  obtain ⟨w, rs, -, hr⟩ | ⟨-, ⟨ha, hr⟩ | ⟨-, -, hr⟩ | ⟨w, ws, -, -, hr⟩⟩ := step_cases s _ h
  · cases hr; exact resetStep_keeps_crcTracks w _
  · exact seqStep_keeps_crcTracks (hs.withHost s.words s.rst.tail) hc ha hr.symm
  · cases hr; exact hc
  · exact cmdStep_keeps_crcTracks (hs.withHost ws s.rst.tail) hc hr.symm

end Sys2Proof.Machine
end

section
/-! PROOFS, the payload buffer's commands (42_framer.md R141, R142): `DCLR`, and `DPUSH` below, at and above the capacity. -/

namespace Sys2Proof.Machine

section
variable {s : State}

/-- The rule of `DPUSH` in a ready state (R142). -/
theorem exec_dpush_of_ready (b : Byte) (h : s.Ready) :
    exec (.dpush b) s =
      if s.len = s.dataMax then .next (s.raise .overflow) else withAppended s b fun u => .next u := by
  rw [exec, execDpush, accept_ready _ _ _ h.1 h.2]

theorem readBuffer_appendByte_len (b : Byte) (h : s.len < s.len + 1#32) : (s.appendByte b).readBuffer s.len = some b :=
  (if_pos h).trans (Memory.read_write_same s.d s.len.toNat b)

/-- The bytes below the one appended read as before. -/
theorem readBuffer_appendByte_of_lt (b : Byte) {i : Word} (hl : s.len < s.len + 1#32) (hi : i < s.len) :
    (s.appendByte b).readBuffer i = s.readBuffer i := by
  have hne : i.toNat ≠ s.len.toNat := Nat.ne_of_lt hi
  have hi' : i < s.len + 1#32 := BitVec.lt_trans hi hl
  simp [State.readBuffer, hi, hi', Memory.read_write_other _ _ _ _ hne]

end

/-- Settles O19: the rule's three ways, by where `LEN` stands to the capacity. -/
theorem bufferCommands : Obligations.BufferCommands := by
  refine ⟨fun s hr => accept_ready _ (fun v => .next v.emptyBuffer) s hr.1 hr.2,
    fun s b hr hl => ?below, fun s b hr hl => ?full, fun s b hr hl => ?above⟩
  case below =>
    have hwrap : s.len < s.len + 1#32 := by bv_omega
    have hne : s.len ≠ s.dataMax := by rintro h; simp [h] at hl
    refine ⟨s.appendByte b, ?_, rfl, (by bv_omega : (s.len + 1#32).toNat = s.len.toNat + 1),
      readBuffer_appendByte_len b hwrap, fun i => readBuffer_appendByte_of_lt b hwrap⟩
    rw [exec_dpush_of_ready b hr, if_neg hne, withAppended, if_pos hl]
  case full =>
    rw [exec_dpush_of_ready b hr, if_pos hl]
    rfl
  case above =>
    have hne : s.len ≠ s.dataMax := by rintro h; simp [h] at hl
    have hnot : ¬ s.len < s.dataMax := by bv_omega
    rw [exec_dpush_of_ready b hr, if_neg hne, withAppended, if_neg hnot]

end Sys2Proof.Machine
end

section
/-! PROOFS, the framer (42_framer.md R143 to R149): its sequencer steps, and the run of `EMIT`, whose state after each number
of steps is written out. -/

namespace Sys2Proof.Machine

/-! ### The sequencer steps of a frame (R145 to R148) -/

/-- Settles O27: the byte is there, and each branch of the rule is one of the two conditions' cases. -/
theorem transmitStepsMoveOneByte : Obligations.TransmitStepsMoveOneByte := by
  have hidx (s : State) : s.idx < 3#32 ↔ s.idx.toNat < 3 := BitVec.lt_def
  refine ⟨fun s b hp hb => ?len, fun s b hp hb => ?type, fun s b hp hb => ?data, fun s b hp hb => ?crc⟩
  case len =>
    simp only [seqStep, hp, seqTxLen, withFieldByte_of_getElem? _ hb, hidx]
    split_ifs <;> rfl
  case type =>
    simp only [seqStep, hp, seqTxType, withFieldByte_of_getElem? _ hb, hidx]
    split_ifs <;> rfl
  case data =>
    have hlast : s.idx + 1#32 = s.len ↔ s.idx.toNat + 1 = s.len.toNat := by
      have hlt : s.idx < s.len := lt_len_of_readBuffer hb
      bv_omega
    simp only [seqStep, hp, seqTxData, withBufferByte_of_readBuffer _ hb, hlast]
    split_ifs <;> rfl
  case crc =>
    have hb : (be32 (crcFinal s.c))[s.idx.toNat]? = some b := hb
    simp only [seqStep, hp, seqTxCrc, withFieldByte_of_getElem? _ hb, hidx]
    split_ifs <;> rfl

/-! ### The bytes of a frame, by field (R144) -/

/-- The bytes of a frame that are folded into `C`, the type and the payload (R43). -/
def State.body (s : State) : List Byte := s.t.bytes ++ s.payload

theorem State.Inv.body_length {s : State} (h : s.Inv) : s.body.length = 4 + s.len.toNat := by
  rw [State.body, List.length_append, h.payload_length]
  rfl

theorem State.Inv.frame_fields {s : State} (h : s.Inv) :
    frame s.t.bytes s.payload = be32 s.len ++ (s.body ++ be32 (crcFinal (crcRaw s.body))) := by
  have hlen : BitVec.ofNat 32 s.payload.length = s.len := by rw [h.payload_length, BitVec.ofNat_toNat, BitVec.setWidth_eq]
  rw [frame_eq _ _ (by rw [h.payload_length]; exact s.len.isLt), hlen, State.body, crc32]
  simp only [List.append_assoc]

/-! ### The run of `EMIT` (R149) -/

/-- `PHASE` and `IDX` after `k` of the `12 + LEN` steps of `EMIT`. -/
def emitPosition (len : Word) (k : Nat) : Phase × Word :=
  if k < 4 then (.txLen, BitVec.ofNat 32 k)
  else if k < 8 then (.txType, BitVec.ofNat 32 (k - 4))
  else if k < 8 + len.toNat then (.txData, BitVec.ofNat 32 (k - 8))
  else if k < 12 + len.toNat then (.txCrc, BitVec.ofNat 32 (k - (8 + len.toNat)))
  else (.idle, 0#32)

/-- The state after `k` of the `12 + LEN` steps of `EMIT`, where `s` is the state the command was performed in: the first
four steps fold nothing into `C`, and the last four find all of the body folded. -/
def emitState (s : State) (k : Nat) : State :=
  { s with
    c := crcRaw (s.body.take (k - 4))
    out := s.out ++ (frame s.t.bytes s.payload).take k
    phase := (emitPosition s.len k).1
    idx := (emitPosition s.len k).2 }

theorem emitPosition_len (len : Word) {k : Nat} (h : k < 4) : emitPosition len k = (.txLen, BitVec.ofNat 32 k) :=
  if_pos h

theorem emitPosition_type (len : Word) {k : Nat} (h : k < 4) : emitPosition len (4 + k) = (.txType, BitVec.ofNat 32 k) := by
  simp [emitPosition, show 4 + k < 8 by omega]

theorem emitPosition_data {len : Word} {k : Nat} (h : k < len.toNat) :
    emitPosition len (4 + (4 + k)) = (.txData, BitVec.ofNat 32 k) := by
  simp [emitPosition, ← Nat.add_assoc, h, show ¬ 8 + k < 4 by omega]

theorem emitPosition_crc (len : Word) {k : Nat} (h : k < 4) :
    emitPosition len (4 + (4 + len.toNat) + k) = (.txCrc, BitVec.ofNat 32 k) := by
  simp [emitPosition, ← Nat.add_assoc, show ¬ 8 + len.toNat + k < 4 by omega, show ¬ 8 + len.toNat + k < 8 by omega,
    show 8 + len.toNat + k < 12 + len.toNat by omega]

theorem emitPosition_end (len : Word) : emitPosition len (12 + len.toNat) = (.idle, 0#32) := by
  simp [emitPosition, show ¬ 12 + len.toNat < 4 by omega, show ¬ 12 + len.toNat < 8 by omega]

/-- The jumps of R145, R146 and R148: three bytes of the field go on in its phase, the last to the next one. -/
theorem emitPosition_succ_field {len : Word} {base k : Nat} {p q : Phase}
    (hin : ∀ j < 4, emitPosition len (base + j) = (p, BitVec.ofNat 32 j)) (hout : emitPosition len (base + 4) = (q, 0#32))
    (hk : k < 4) :
    emitPosition len (base + k + 1) =
      (if k < 3 then p else q, if k < 3 then BitVec.ofNat 32 k + 1#32 else 0#32) := by
  obtain h | rfl : k < 3 ∨ k = 3 := by omega
  · rw [Nat.add_assoc, hin _ (by omega), if_pos h, if_pos h, BitVec.ofNat_add]
  · exact hout

/-- Where R146 goes after the type: with no payload straight to the crc. -/
theorem emitPosition_after_type (len : Word) :
    emitPosition len 8 = (if len = 0#32 then .txCrc else .txData, 0#32) := by
  obtain rfl | hl := eq_or_ne len 0#32
  · exact emitPosition_crc 0#32 (k := 0) (by omega)
  · rw [if_neg hl]
    exact emitPosition_data (k := 0) (by bv_omega)

/-- The jump of R147. -/
theorem emitPosition_succ_data {len : Word} {k : Nat} (h : k < len.toNat) :
    emitPosition len (4 + (4 + k) + 1) =
      (if k + 1 = len.toNat then .txCrc else .txData,
       if k + 1 = len.toNat then 0#32 else BitVec.ofNat 32 k + 1#32) := by
  rw [Nat.add_assoc, Nat.add_assoc]
  split_ifs with hk
  · rw [hk]
    exact emitPosition_crc len (k := 0) (by omega)
  · rw [emitPosition_data (by omega), BitVec.ofNat_add]

/-! The state along the run -/

section
variable {s : State} {k : Nat}

theorem State.Inv.frame_getElem?_len (h : s.Inv) (hk : k < 4) :
    (frame s.t.bytes s.payload)[k]? = (be32 s.len)[k]? := by
  rw [h.frame_fields, List.getElem?_append_left hk]

theorem State.Inv.frame_getElem?_body (h : s.Inv) (hk : k < 4 + s.len.toNat) :
    (frame s.t.bytes s.payload)[4 + k]? = s.body[k]? := by
  rw [h.frame_fields, List.getElem?_append_right (Nat.le_add_right 4 k), List.getElem?_append_left]
  · exact congrArg (s.body[·]?) (Nat.add_sub_cancel_left 4 k)
  · rw [h.body_length]
    exact (Nat.add_sub_cancel_left 4 k).trans_lt hk

theorem State.Inv.frame_getElem?_crc (h : s.Inv) :
    (frame s.t.bytes s.payload)[4 + (4 + s.len.toNat) + k]? = (be32 (crcFinal (crcRaw s.body)))[k]? := by
  have hfields : (be32 s.len ++ s.body).length = 4 + (4 + s.len.toNat) := by
    rw [List.length_append, h.body_length]
    rfl
  rw [h.frame_fields, ← List.append_assoc, ← hfields, List.getElem?_append_right (Nat.le_add_right _ k),
    Nat.add_sub_cancel_left]

/-- While the length is sent nothing is folded (R145). -/
theorem emitState_c_len (s : State) (hk : k ≤ 4) : (emitState s k).c = crcRaw [] := by
  rw [emitState, Nat.sub_eq_zero_of_le hk, List.take_zero]

theorem emitState_c_body {b : Byte} (hb : s.body[k]? = some b) :
    (emitState s (4 + k + 1)).c = crcUpd (emitState s (4 + k)).c b := by
  have hmoved (n : Nat) : (emitState s (4 + n)).c = crcRaw (s.body.take n) := by
    rw [emitState, Nat.add_sub_cancel_left]
  rw [Nat.add_assoc, hmoved, hmoved, crcRaw_take_succ hb]

/-- While the crc is sent all of the body is folded (R148). -/
theorem State.Inv.emitState_c_crc (h : s.Inv) (hk : 4 + (4 + s.len.toNat) ≤ k) : (emitState s k).c = crcRaw s.body := by
  rw [emitState, List.take_of_length_le (by rw [h.body_length]; omega)]

theorem emitState_succ {b : Byte} {c : Word} {p : Phase} {i : Word} (hb : (frame s.t.bytes s.payload)[k]? = some b)
    (hc : (emitState s (k + 1)).c = c) (hp : emitPosition s.len (k + 1) = (p, i)) :
    emitState s (k + 1) =
      { emitState s k with out := (emitState s k).out ++ [b], c := c, phase := p, idx := i } := by
  subst hc
  simp only [emitState, hp, List.take_add_one, hb, Option.toList_some, List.append_assoc]

/-- `PHASE` and `IDX` of a state along the run, as the rules of the steps ask for them. -/
theorem emitState_position {n : Nat} {p : Phase} (h : emitPosition s.len n = (p, BitVec.ofNat 32 k)) (hk : k < 2 ^ 32) :
    (emitState s n).phase = p ∧ (emitState s n).idx = BitVec.ofNat 32 k ∧ (emitState s n).idx.toNat = k := by
  have hi : (emitState s n).idx = BitVec.ofNat 32 k := congrArg Prod.snd h
  exact ⟨congrArg Prod.fst h, hi, by rw [hi, BitVec.toNat_ofNat, Nat.mod_eq_of_lt hk]⟩

theorem seqStep_emitState_len (hs : s.Inv) (hk : k < 4) : seqStep (emitState s k) = .next (emitState s (k + 1)) := by
  obtain ⟨hp, hi, hidx⟩ := emitState_position (emitPosition_len s.len hk) (by omega)
  have hb : (be32 s.len)[k]? = some (be32 s.len)[k] := List.getElem?_eq_getElem hk
  have hpos := emitPosition_succ_field (base := 0) (fun j hj => by rw [Nat.zero_add, emitPosition_len s.len hj])
    (emitPosition_type s.len (k := 0) (by omega)) hk
  rw [Nat.zero_add] at hpos
  rw [transmitStepsMoveOneByte.1 (emitState s k) _ hp (by rw [hidx]; exact hb),
    emitState_succ ((hs.frame_getElem?_len hk).trans hb)
      ((emitState_c_len s (by omega)).trans (emitState_c_len s hk.le).symm) hpos, hidx, hi]

theorem seqStep_emitState_type (hs : s.Inv) (hk : k < 4) :
    seqStep (emitState s (4 + k)) = .next (emitState s (4 + k + 1)) := by
  obtain ⟨hp, hi, hidx⟩ := emitState_position (emitPosition_type s.len hk) (by omega)
  have hb : s.t.bytes[k]? = some s.t.bytes[k] := List.getElem?_eq_getElem hk
  have hbody : s.body[k]? = some s.t.bytes[k] := by rwa [State.body, List.getElem?_append_left hk]
  rw [transmitStepsMoveOneByte.2.1 (emitState s (4 + k)) _ hp (by rw [hidx]; exact hb),
    emitState_succ ((hs.frame_getElem?_body (by omega)).trans hbody) (emitState_c_body hbody)
      (emitPosition_succ_field (fun _ => emitPosition_type s.len) (emitPosition_after_type s.len) hk), hidx, hi]
  rfl

theorem seqStep_emitState_data (hs : s.Inv) (hk : k < s.len.toNat) :
    seqStep (emitState s (4 + (4 + k))) = .next (emitState s (4 + (4 + k) + 1)) := by
  obtain ⟨hp, hi, hidx⟩ := emitState_position (emitPosition_data hk) (by omega)
  have hlt : (emitState s (4 + (4 + k))).idx < s.len := by rw [BitVec.lt_def, hidx]; exact hk
  obtain ⟨b, hread⟩ := hs.exists_readBuffer hlt
  have hbody : s.body[4 + k]? = some b := by
    rw [State.body, bytes_append_getElem?_four_add, ← hread, hs.readBuffer_eq hlt, hidx]
  rw [transmitStepsMoveOneByte.2.2.1 (emitState s (4 + (4 + k))) b hp hread,
    emitState_succ ((hs.frame_getElem?_body (by omega)).trans hbody) (emitState_c_body hbody)
      (emitPosition_succ_data hk), hidx, hi]
  rfl

theorem seqStep_emitState_crc (hs : s.Inv) (hk : k < 4) :
    seqStep (emitState s (4 + (4 + s.len.toNat) + k)) = .next (emitState s (4 + (4 + s.len.toNat) + k + 1)) := by
  obtain ⟨hp, hi, hidx⟩ := emitState_position (emitPosition_crc s.len hk) (by omega)
  have hc (n : Nat) : (emitState s (4 + (4 + s.len.toNat) + n)).c = crcRaw s.body :=
    hs.emitState_c_crc (Nat.le_add_right _ n)
  have hb : (be32 (crcFinal (crcRaw s.body)))[k]? = some (be32 (crcFinal (crcRaw s.body)))[k] := List.getElem?_eq_getElem hk
  have hend : emitPosition s.len (4 + (4 + s.len.toNat) + 4) = (.idle, 0#32) := by
    rw [show 4 + (4 + s.len.toNat) + 4 = 12 + s.len.toNat by omega, emitPosition_end]
  rw [transmitStepsMoveOneByte.2.2.2 (emitState s (4 + (4 + s.len.toNat) + k)) _ hp (by rw [hidx, hc]; exact hb),
    emitState_succ (hs.frame_getElem?_crc.trans hb) ((hc (k + 1)).trans (hc k).symm)
      (emitPosition_succ_field (fun _ => emitPosition_crc s.len) hend hk), hidx, hi]

theorem emitState_autonomous (s : State) (hk : k < 12 + s.len.toNat) : (emitState s k).phase.autonomous = true := by
  simp only [emitState, emitPosition, hk, if_true]
  split_ifs <;> rfl

/-- The fields of a frame, one after the other. -/
theorem seqStep_emitState (hs : s.Inv) (hk : k < 12 + s.len.toNat) :
    seqStep (emitState s k) = .next (emitState s (k + 1)) := by
  obtain h | ⟨i, rfl⟩ : k < 4 ∨ ∃ i, k = 4 + i := (lt_or_ge k 4).imp_right Nat.exists_eq_add_of_le
  · exact seqStep_emitState_len hs h
  obtain h | ⟨i, rfl⟩ : i < 4 ∨ ∃ j, i = 4 + j := (lt_or_ge i 4).imp_right Nat.exists_eq_add_of_le
  · exact seqStep_emitState_type hs h
  obtain h | ⟨j, rfl⟩ : i < s.len.toNat ∨ ∃ j, i = s.len.toNat + j :=
    (lt_or_ge i _).imp_right Nat.exists_eq_add_of_le
  · exact seqStep_emitState_data hs h
  · rw [show 4 + (4 + (s.len.toNat + j)) = 4 + (4 + s.len.toNat) + j by omega] at hk ⊢
    exact seqStep_emitState_crc hs (by omega)

theorem run_emitState (hs : s.Inv) (hr : s.rst = []) {n : Nat} (hn : n ≤ 12 + s.len.toNat) :
    Sys2Proof.core.run n (emitState s 0) = .next (emitState s n) := by
  refine run_of_steps (emitState s) n fun k hk => ?_
  rw [step_of_autonomous (s := emitState s k) hr (emitState_autonomous s (by omega))]
  exact seqStep_emitState hs (by omega)

/-- After its last step `EMIT` has sent the frame and folded its body, and `IDLE` is the phase it was performed in. -/
theorem emitState_end (hs : s.Inv) (hp : s.phase = .idle) :
    emitState s (12 + s.len.toNat) =
      { s with c := crcRaw (s.t.bytes ++ s.payload), out := s.out ++ frame s.t.bytes s.payload } := by
  have hc : (emitState s (12 + s.len.toNat)).c = crcRaw s.body := hs.emitState_c_crc (by omega)
  have hall : (frame s.t.bytes s.payload).take (12 + s.len.toNat) = frame s.t.bytes s.payload :=
    List.take_of_length_le (by rw [frame_length _ _ (by rw [hs.payload_length]; omega), hs.payload_length])
  rw [← State.body, ← hc]
  simp only [emitState, hall, emitPosition_end, ← hs.idx_eq_zero hp, ← hp]

theorem emitState_zero (s : State) :
    emitState s 0 = { s with c := 0xFFFFFFFF#32, phase := .txLen, idx := 0#32 } := by
  have hout : s.out ++ (frame s.t.bytes s.payload).take 0 = s.out := List.append_nil s.out
  rw [emitState, hout]
  rfl

theorem exec_emit_of_ready (h : s.Ready) : exec .emit s = .next (emitState s 0) := by
  rw [emitState_zero]
  exact accept_ready .idleOnly (fun s => .next (s.seedCrc.goto .txLen 0#32)) s h.1 h.2

end

/-- Settles O30: the command step, and the run to its last state. -/
theorem emitSendsTheFrame : Obligations.EmitSendsTheFrame := by
  intro s hs hready hr
  refine ⟨emitState s 0, exec_emit_of_ready hready, emitState_zero s, ?_⟩
  rw [run_emitState hs hr le_rfl, emitState_end hs hready.1]

end Sys2Proof.Machine
end

section
/-! PROOFS, the deframer's commands (43_deframer.md R160 to R168, 44_file_stream.md R183, R185): which rule a state performs,
and each rule at each position of its field. -/

namespace Sys2Proof.Machine

section
variable {s : State}

/-! ### The dispatch of the commands legal in every phase (R78) -/

theorem accept_anyPhase (f : State → Result) (ha : s.phase.autonomous = false) (hn : s.err = .none) :
    accept .anyPhase f s = f s := by
  simp [accept, ha, hn]

/-! `RXB` with no error latched is the rule of the phase (R161) -/

theorem exec_rxb_of_rxLen (b : Byte) (hp : s.phase = .rxLen) (hn : s.err = .none) : exec (.rxb b) s = rxbLen b s := by
  rw [exec, execRxb, accept_anyPhase _ (by rw [hp]; rfl) hn, hp]

theorem exec_rxb_of_rxType (b : Byte) (hp : s.phase = .rxType) (hn : s.err = .none) :
    exec (.rxb b) s = rxbType b s := by
  rw [exec, execRxb, accept_anyPhase _ (by rw [hp]; rfl) hn, hp]

theorem exec_rxb_of_rxData (b : Byte) (hp : s.phase = .rxData) (hn : s.err = .none) :
    exec (.rxb b) s = rxbData b s := by
  rw [exec, execRxb, accept_anyPhase _ (by rw [hp]; rfl) hn, hp]

theorem exec_rxb_of_rxCrc (b : Byte) (hp : s.phase = .rxCrc) (hn : s.err = .none) : exec (.rxb b) s = rxbCrc b s := by
  rw [exec, execRxb, accept_anyPhase _ (by rw [hp]; rfl) hn, hp]

/-- In `IDLE` no byte is awaited (R261). -/
theorem exec_rxb_of_ready (b : Byte) (h : s.Ready) : exec (.rxb b) s = .next (s.raise .badSequence) := by
  rw [exec, execRxb, accept_anyPhase _ (by rw [h.1]; rfl) h.2, h.1]

/-- With an error latched the byte is dropped (R256). -/
theorem exec_rxb_of_faulted (b : Byte) (ha : s.phase.autonomous = false) (hn : s.err ≠ .none) :
    exec (.rxb b) s = .next s := by
  simp [exec, execRxb, accept, ha, hn]

/-- A chunk is being received: a byte of one of its four fields is awaited (R28). -/
def State.AwaitsChunk (s : State) : Prop := s.phase ∈ [Phase.rxLen, .rxType, .rxData, .rxCrc] ∧ s.err = .none

theorem State.AwaitsChunk.not_autonomous (h : s.AwaitsChunk) : s.phase.autonomous = false :=
  (by decide : ∀ p ∈ [Phase.rxLen, .rxType, .rxData, .rxCrc], p.autonomous = false) _ h.1

theorem State.AwaitsChunk.ne_idle (h : s.AwaitsChunk) : s.phase ≠ .idle :=
  fun hp => absurd (hp ▸ h.1) (by decide)

/-- The end of input inside a chunk (R168, R257). -/
theorem State.AwaitsChunk.exec_rxeof (h : s.AwaitsChunk) : exec .rxeof s = .next (s.raise .unexpectedEof) := by
  have hp : s.phase = .rxLen ∨ s.phase = .rxType ∨ s.phase = .rxData ∨ s.phase = .rxCrc := by simpa using h.1
  rw [exec, execRxeof, accept_anyPhase _ h.not_autonomous h.2]
  obtain hp | hp | hp | hp := hp <;> rw [hp]

theorem exec_rxeof_of_ready (h : s.Ready) : exec .rxeof s = .next s := by
  rw [exec, execRxeof, accept_anyPhase _ (by rw [h.1]; rfl) h.2, h.1]

theorem exec_rxeof_of_rxSig (hp : s.phase = .rxSig) (hn : s.err = .none) :
    exec .rxeof s = .next (s.raise .invalidSignature) := by
  rw [exec, execRxeof, accept_anyPhase _ (by rw [hp]; rfl) hn, hp]

/-- The state `RXCHUNK` goes to (R160). -/
def State.rxStart (s : State) : State := s.seedCrc.emptyBuffer.clearRx.goto .rxLen 0#32

theorem exec_rxchunk_of_ready (h : s.Ready) : exec .rxchunk s = .next s.rxStart :=
  accept_ready .idleOnly (fun s => .next s.rxStart) s h.1 h.2

end

/-! ### The statements -/

/-- Settles O20: the two rules in a ready state. -/
theorem receiveCommandsStartWaiting : Obligations.ReceiveCommandsStartWaiting :=
  ⟨fun _ hr => exec_rxchunk_of_ready hr,
    fun s hr => accept_ready .idleOnly (fun s => .next (s.goto .rxSig 0#32)) s hr.1 hr.2⟩

/-- The last position of a four-byte field. -/
theorem not_lt_three {i : Word} (h : i.toNat = 3) : ¬ i < 3#32 := by
  rw [BitVec.lt_def, h]
  decide

/-- Settles O22: the rule's three ways, by the position and the length received. -/
theorem rxbInLengthPhase : Obligations.RxbInLengthPhase := by
  rintro s b n hp hn rfl
  rw [exec_rxb_of_rxLen b hp hn, rxbLen, ← hp]
  exact ⟨fun hi => if_pos hi, fun hi hl => (if_neg (not_lt_three hi)).trans (if_pos hl),
    fun hi hl => (if_neg (not_lt_three hi)).trans (if_neg (BitVec.not_lt.mpr hl))⟩

/-- Settles O23: the rule at each index of `T`, and its two ways after the last. -/
theorem rxbInTypePhase : Obligations.RxbInTypePhase := by
  intro s b hp hn
  rw [exec_rxb_of_rxType b hp hn, rxbType]
  refine ⟨fun hi => ?_, fun hi => ?_, fun hi => ?_, fun hi => ?last⟩
  case last =>
    simp only [withTypeIndex, hi]
    by_cases hl : s.rxlen = 0#32
    · simp [hl, State.loadType, State.foldByte, State.goto, TypeReg.set]
    · simp [hl, State.loadType, State.foldByte, State.goto, TypeReg.set]
  all_goals
    simp only [withTypeIndex, hi, ← hp]
    rfl

/-- Settles O24: the byte has an address, and the rule's two ways are the two cases of the declared length. -/
theorem rxbInDataPhase : Obligations.RxbInDataPhase := by
  intro s b hp hn hi hl hc
  have hcap : s.len < s.dataMax := by bv_omega
  have hlast : s.len + 1#32 = s.rxlen ↔ s.len.toNat + 1 = s.rxlen.toNat := by bv_omega
  rw [exec_rxb_of_rxData b hp hn, rxbData, withAppended, if_pos hcap, hi, ← hp]
  exact ⟨fun h => if_pos (hlast.mpr h), fun h => if_neg (hlast.not.mpr h.ne)⟩

/-- Settles O25: the rule's three ways, by the position and the comparison. -/
theorem rxbInCrcPhase : Obligations.RxbInCrcPhase := by
  rintro s b r hp hn rfl
  rw [exec_rxb_of_rxCrc b hp hn, rxbCrc, ← hp]
  exact ⟨fun hi => if_pos hi, fun hi hr => (if_neg (not_lt_three hi)).trans (if_pos hr),
    fun hi hr => (if_neg (not_lt_three hi)).trans (if_neg (not_not.mpr hr))⟩

/-- Settles O26: `RXEOF` in `IDLE`, in the signature and in a chunk. -/
theorem rxeofByPhase : Obligations.RxeofByPhase :=
  ⟨rfl, fun _ => exec_rxeof_of_ready, fun _ => exec_rxeof_of_rxSig,
    fun _ hp hn => State.AwaitsChunk.exec_rxeof ⟨hp, hn⟩⟩

end Sys2Proof.Machine
end

section
/-! PROOFS, the reception of a chunk (43_deframer.md R163 to R169, R172): its fields received one after the other, the state
after each written out, and from them what a whole frame does. -/

namespace Sys2Proof.Machine

/-- `Receives s bs u`: the bytes `bs`, one `RXB` each, take `s` to `u`, each of them being awaited when it comes. -/
inductive Receives : State → List Byte → State → Prop
  | nil (s : State) : Receives s [] s
  | cons {s u v : State} {b : Byte} {bs : List Byte} (hs : s.AwaitsChunk) (hb : exec (.rxb b) s = .next u)
      (h : Receives u bs v) : Receives s (b :: bs) v

namespace Receives

variable {s u v : State} {xs ys : List Byte}

theorem append (h : Receives s xs u) (h' : Receives u ys v) : Receives s (xs ++ ys) v := by
  induction h with
  | nil => exact h'
  | cons hs hb _ ih => exact .cons hs hb (ih h')

theorem split (h : Receives s (xs ++ ys) v) : ∃ u, Receives s xs u ∧ Receives u ys v := by
  induction xs generalizing s with
  | nil => exact ⟨s, .nil s, h⟩
  | cons b xs ih =>
    cases h with
    | cons hs hb h =>
      obtain ⟨u, hu, hv⟩ := ih h
      exact ⟨u, .cons hs hb hu, hv⟩

/-- Where more bytes are to come, one is awaited. -/
theorem awaits (h : Receives s (xs ++ ys) v) (hys : ys ≠ []) : ∃ u, Receives s xs u ∧ u.AwaitsChunk := by
  obtain ⟨u, hu, hv⟩ := h.split
  cases hv with
  | nil => exact absurd rfl hys
  | cons hs _ _ => exact ⟨u, hu, hs⟩

theorem deliver_eq (h : Receives s xs u) (rest : List Byte) : deliver (xs ++ rest) s = deliver rest u := by
  induction h with
  | nil => rfl
  | cons hs hb _ ih => rw [List.cons_append, deliver, hostSend_accepting _ _ hs.not_autonomous, hb]; exact ih

theorem deliver_all (h : Receives s xs u) : deliver xs s = .next u := by
  simpa [deliver] using h.deliver_eq []

theorem feed_eq (h : Receives s xs u) (rest : List Byte) : feed (xs ++ rest) s = feed rest u := by
  induction h with
  | nil => rfl
  | cons hs hb _ ih =>
    rw [List.cons_append, feed, if_neg hs.ne_idle, hostSend_accepting _ _ hs.not_autonomous, hb]
    exact ih

theorem keeps_inv (h : Receives s xs u) (hs : s.Inv) : u.Inv := by
  induction h with
  | nil => exact hs
  | cons _ hb _ ih => exact ih ((exec_effect hb).keeps_inv hs)

end Receives

/-! ### The length (R163) -/

/-- Four bytes shifted in, most significant first, replace the register. -/
theorem shiftIn_be32 (w v : Word) :
    shiftIn (shiftIn (shiftIn (shiftIn w (be32Byte v 0)) (be32Byte v 1)) (be32Byte v 2)) (be32Byte v 3) = v := by
  apply BitVec.eq_of_getLsbD_eq
  intro k hk
  interval_cases k <;> simp [shiftIn, be32Byte]

section
variable {s v : State} {b : Byte} {bs : List Byte} {i : Word}

theorem awaitsChunk_goto {p : Phase} (hp : p ∈ [Phase.rxLen, .rxType, .rxData, .rxCrc]) (hn : s.err = .none)
    (i : Word) : (s.goto p i).AwaitsChunk := ⟨hp, hn⟩

theorem Receives.length_byte (hn : s.err = .none) (hi : i.toNat < 3)
    (h : Receives ((s.shiftLen b).goto .rxLen (i + 1#32)) bs v) : Receives (s.goto .rxLen i) (b :: bs) v :=
  .cons (awaitsChunk_goto (by decide) hn i) ((rxbInLengthPhase (s.goto .rxLen i) b _ rfl hn rfl).1 hi) h

/-- The length field, which only its fourth byte can have refused. -/
theorem receives_length (hn : s.err = .none) (n : Word) :
    Receives s.rxStart (be32 n)
      (if s.dataMax < n then { s.rxStart with rxlen := n }.raise .overflow
       else { s.rxStart with rxlen := n }.goto .rxType 0#32) := by
  refine .length_byte hn (by decide) <| .length_byte hn (by decide) <| .length_byte hn (by decide) <|
    .cons (awaitsChunk_goto (by decide) hn 3#32) ?_ (.nil _)
  obtain ⟨-, htooLong, hlast⟩ := rxbInLengthPhase
    ((((s.rxStart.shiftLen (be32Byte n 0)).shiftLen (be32Byte n 1)).shiftLen (be32Byte n 2)).goto .rxLen 3#32)
    (be32Byte n 3) n rfl hn (shiftIn_be32 0#32 n).symm
  split_ifs with hl
  · exact htooLong rfl hl
  · exact hlast rfl (BitVec.not_lt.mp hl)

/-! ### The type (R165) -/

theorem Receives.type_byte (hn : s.err = .none) (k : Fin 4) (hk : k.val < 3) (hi : i = BitVec.ofNat 32 k)
    (h : Receives (((s.loadType k b).foldByte b).goto .rxType (i + 1#32)) bs v) :
    Receives (s.goto .rxType i) (b :: bs) v := by
  subst hi
  refine .cons (awaitsChunk_goto (by decide) hn _) ?_ h
  obtain ⟨h0, h1, h2, -⟩ := rxbInTypePhase (s.goto .rxType (BitVec.ofNat 32 k)) b rfl hn
  fin_cases k
  · exact h0 rfl
  · exact h1 rfl
  · exact h2 rfl
  · exact absurd rfl hk.ne

/-- The last type byte: data follow, or with none declared the crc. -/
theorem receives_last_of_type (hn : s.err = .none) (b : Byte) :
    Receives (s.goto .rxType 3#32) [b]
      (((s.loadType 3 b).foldByte b).goto (if s.rxlen = 0#32 then .rxCrc else .rxData) 0#32) :=
  .cons (awaitsChunk_goto (by decide) hn _) ((rxbInTypePhase (s.goto .rxType 3#32) b rfl hn).2.2.2 rfl) (.nil _)

theorem receives_type (hn : s.err = .none) (t : TypeReg) :
    Receives (s.goto .rxType 0#32) t.bytes
      ({ s with t := t, c := crcFold s.c t.bytes }.goto (if s.rxlen = 0#32 then .rxCrc else .rxData) 0#32) :=
  .type_byte hn 0 (by decide) rfl <| .type_byte hn 1 (by decide) rfl <| .type_byte hn 2 (by decide) rfl <|
    receives_last_of_type (s := { s with t := ⟨t.b0, t.b1, t.b2, s.t.b3⟩, c := crcFold s.c [t.b0, t.b1, t.b2] }) hn t.b3

/-! ### The data (R166) -/

theorem Memory.ofBytesAt_append (k : Nat) (xs ys : List Byte) :
    Memory.ofBytesAt k (xs ++ ys) = Memory.ofBytesAt k xs ++ Memory.ofBytesAt (k + xs.length) ys := by
  induction xs generalizing k with
  | nil => rfl
  | cons b xs ih =>
    rw [List.cons_append, Memory.ofBytesAt, ih, List.length_cons, Nat.add_assoc, Nat.add_comm 1]
    rfl

theorem Memory.map_fst_ofBytesAt (k : Nat) (bs : List Byte) :
    (Memory.ofBytesAt k bs).map Prod.fst = List.range' k bs.length := by
  induction bs generalizing k with
  | nil => rfl
  | cons b bs ih => simp [Memory.ofBytesAt, ih, List.range'_succ]

theorem Memory.map_snd_ofBytesAt (k : Nat) (bs : List Byte) : (Memory.ofBytesAt k bs).map Prod.snd = bs := by
  induction bs generalizing k with
  | nil => rfl
  | cons b bs ih => simp [Memory.ofBytesAt, ih]

theorem Memory.map_fst_ofBytesAt_zero (bs : List Byte) :
    (Memory.ofBytesAt 0 bs).map Prod.fst = List.range bs.length := by
  rw [Memory.map_fst_ofBytesAt, List.range_eq_range']

theorem Memory.write_ofBytesAt (bs : List Byte) (b : Byte) :
    Memory.write (Memory.ofBytesAt 0 bs) bs.length b = Memory.ofBytesAt 0 (bs ++ [b]) := by
  rw [Memory.write_range _ _ _ (Memory.map_fst_ofBytesAt_zero bs), Memory.ofBytesAt_append, Nat.zero_add]
  rfl

/-- The state that holds the chunk of type `t` and data `d`, all of it folded into `C`. -/
def State.holding (s : State) (t : TypeReg) (d : List Byte) : State :=
  { s with t := t, c := crcRaw (t.bytes ++ d), len := BitVec.ofNat 32 d.length, d := Memory.ofBytesAt 0 d }

theorem State.payload_holding (s : State) (t : TypeReg) {d : List Byte} (h : d.length < 2 ^ 32) :
    (s.holding t d).payload = d := by
  have hlen : (s.holding t d).len.toNat = d.length := Nat.mod_eq_of_lt h
  rw [State.payload_eq _ (by rw [hlen]; exact Memory.map_fst_ofBytesAt_zero d)]
  exact Memory.map_snd_ofBytesAt 0 d

/-- One more byte stored and folded. -/
theorem State.holding_concat (s : State) (t : TypeReg) {d : List Byte} (h : d.length < 2 ^ 32) (b : Byte) :
    s.holding t (d ++ [b]) = ((s.holding t d).appendByte b).foldByte b := by
  have hlen : (s.holding t d).len.toNat = d.length := Nat.mod_eq_of_lt h
  have hd : Memory.ofBytesAt 0 (d ++ [b]) = Memory.write (s.holding t d).d (s.holding t d).len.toNat b := by
    rw [hlen]
    exact (Memory.write_ofBytesAt d b).symm
  simp only [State.holding, hd, ← List.append_assoc, crcRaw_concat, List.length_append, BitVec.ofNat_add]
  rfl

/-- The state of a reception with the type `t` and the data bytes `d` taken: the next byte is a data byte, or once they are
as many as declared a crc byte. -/
def State.inData (s : State) (t : TypeReg) (d : List Byte) : State :=
  if d.length = s.rxlen.toNat then (s.holding t d).goto .rxCrc 0#32
  else (s.holding t d).goto .rxData (BitVec.ofNat 32 d.length)

theorem Receives.data_byte (hn : s.err = .none) (t : TypeReg) (hcap : s.rxlen ≤ s.dataMax) {d : List Byte}
    (hd : d.length < s.rxlen.toNat) (h : Receives (s.inData t (d ++ [b])) bs v) :
    Receives (s.inData t d) (b :: bs) v := by
  have hlen : (s.holding t d).len.toNat = d.length := Nat.mod_eq_of_lt (by omega)
  have hmore : (s.holding t d).len < s.rxlen := hlen.trans_lt hd
  obtain ⟨hlast, hgoes⟩ :=
    rxbInDataPhase ((s.holding t d).goto .rxData (BitVec.ofNat 32 d.length)) b rfl hn rfl hmore hcap
  rw [State.inData, if_neg hd.ne]
  refine .cons (awaitsChunk_goto (s := s.holding t d) (by decide) hn _) ?_ h
  rw [State.inData, s.holding_concat t (by omega), List.length_append, List.length_singleton]
  split_ifs with hl
  · exact hlast (by rw [State.goto_len, hlen]; exact hl)
  · rw [BitVec.ofNat_add]
    exact hgoes (by rw [State.goto_len, hlen]; exact Nat.lt_of_le_of_ne hd hl)

theorem receives_data (hn : s.err = .none) (t : TypeReg) (hcap : s.rxlen ≤ s.dataMax) (d : List Byte)
    (hlen : d.length + bs.length ≤ s.rxlen.toNat) : Receives (s.inData t d) bs (s.inData t (d ++ bs)) := by
  induction bs generalizing d with
  | nil => rw [List.append_nil]; exact .nil _
  | cons b bs ih =>
    rw [List.length_cons] at hlen
    refine .data_byte hn t hcap (by omega) ?_
    rw [List.append_cons d b bs]
    exact ih (d ++ [b]) (by rw [List.length_append, List.length_singleton]; omega)

/-! ### The crc (R167) -/

theorem Receives.crc_byte (hn : s.err = .none) (hi : i.toNat < 3)
    (h : Receives ((s.shiftCrc b).goto .rxCrc (i + 1#32)) bs v) : Receives (s.goto .rxCrc i) (b :: bs) v :=
  .cons (awaitsChunk_goto (by decide) hn i) ((rxbInCrcPhase (s.goto .rxCrc i) b _ rfl hn rfl).1 hi) h

/-- The crc field, which only its fourth byte can have refused. -/
theorem receives_crc (hn : s.err = .none) (r : Word) :
    Receives (s.goto .rxCrc 0#32) (be32 r)
      (if r = crcFinal s.c then { s with rxcrc := r }.goto .idle 0#32 else { s with rxcrc := r }.raise .crcMismatch) := by
  refine .crc_byte hn (by decide) <| .crc_byte hn (by decide) <| .crc_byte hn (by decide) <|
    .cons (awaitsChunk_goto (by decide) hn 3#32) ?_ (.nil _)
  obtain ⟨-, hmismatch, hmatch⟩ := rxbInCrcPhase
    ((((s.shiftCrc (be32Byte r 0)).shiftCrc (be32Byte r 1)).shiftCrc (be32Byte r 2)).goto .rxCrc 3#32) (be32Byte r 3) r
    rfl hn (shiftIn_be32 s.rxcrc r).symm
  split_ifs with hr
  · exact hmatch rfl hr
  · exact hmismatch rfl hr

end

/-! ### A whole chunk (R169) -/

/-- The bytes of a chunk with the crc field `r`, whether or not `r` is right. -/
def chunkBytes (t : TypeReg) (d : List Byte) (r : Word) : List Byte :=
  be32 (BitVec.ofNat 32 d.length) ++ (t.bytes ++ (d ++ be32 r))

theorem chunkBytes_length (t : TypeReg) (d : List Byte) (r : Word) : (chunkBytes t d r).length = 12 + d.length := by
  simp only [chunkBytes, List.length_append, be32, TypeReg.bytes, List.length_cons, List.length_nil]
  omega

theorem frame_eq_chunkBytes (t : TypeReg) {d : List Byte} (h : d.length < 2 ^ 32) :
    frame t.bytes d = chunkBytes t d (crc32 (t.bytes ++ d)) := by
  simp only [frame_eq _ _ h, chunkBytes, List.append_assoc]

section
variable {s : State} {t : TypeReg} {d : List Byte}

/-- The state that has received the chunk: in `IDLE`, with `CrcMismatch` unless the crc field is right. -/
def State.parsed (s : State) (t : TypeReg) (d : List Byte) (r : Word) : State :=
  let u := { s.holding t d with rxlen := BitVec.ofNat 32 d.length, rxcrc := r }
  if r = crc32 (t.bytes ++ d) then u.goto .idle 0#32 else u.raise .crcMismatch

/-- After the type no data byte has been taken. -/
theorem State.inData_nil (s : State) (t : TypeReg) :
    s.inData t [] = (s.holding t []).goto (if s.rxlen = 0#32 then .rxCrc else .rxData) 0#32 := by
  have hzero : ([] : List Byte).length = s.rxlen.toNat ↔ s.rxlen = 0#32 :=
    eq_comm.trans (BitVec.toNat_inj (y := 0#32))
  simp only [State.inData, hzero]
  split_ifs <;> rfl

theorem receives_chunk (hn : s.err = .none) (hd : d.length ≤ s.dataMax.toNat) (t : TypeReg) (r : Word) :
    Receives s.rxStart (chunkBytes t d r) (s.parsed t d r) := by
  let u : State := { s.rxStart with rxlen := BitVec.ofNat 32 d.length }
  have hlen : d.length = u.rxlen.toNat := (Nat.mod_eq_of_lt (by omega)).symm
  have hcap : u.rxlen ≤ s.dataMax := by rw [BitVec.le_def, ← hlen]; exact hd
  have length := receives_length hn u.rxlen
  have type := receives_type (s := u) hn t
  have data := receives_data (s := u) (bs := d) hn t hcap [] (by rw [← hlen]; simp)
  have crc := receives_crc (s := u.holding t d) hn r
  rw [if_neg (BitVec.not_lt.mpr hcap)] at length
  rw [State.inData_nil, List.nil_append, State.inData, if_pos hlen] at data
  exact length.append <| type.append <| data.append crc

end

/-! ### A byte changed (R172) -/

theorem exists_eq_type_append {bs : List Byte} (h : 4 ≤ bs.length) :
    ∃ (t : TypeReg) (rest : List Byte), bs = t.bytes ++ rest :=
  match bs, h with
  | b0 :: b1 :: b2 :: b3 :: rest, _ => ⟨⟨b0, b1, b2, b3⟩, rest, rfl⟩

/-- A byte changed to another changes the crc (R130). -/
theorem crc32_set_ne {bs : List Byte} {k : Nat} {b : Byte} (hk : k < bs.length) (hb : bs[k]? ≠ some b) :
    crc32 (bs.set k b) ≠ crc32 bs := by
  have hne : b ≠ bs[k] := by
    rintro rfl
    exact hb (List.getElem?_eq_getElem hk)
  have h := crcDetectsOneChangedByte (bs.take k) (bs.drop (k + 1)) b bs[k] hne
  rwa [← List.set_eq_take_cons_drop b hk, List.getElem_cons_drop, List.take_append_drop] at h

/-- A frame with a byte of its type or data changed is another chunk of the same length, with the crc of the first. -/
theorem frame_set_eq_chunkBytes (t : TypeReg) {d : List Byte} {k : Nat} {b : Byte} (hd : d.length < 2 ^ 32)
    (hk4 : 4 ≤ k) (hk : k < 8 + d.length) (hb : (frame t.bytes d)[k]? ≠ some b) :
    ∃ (t' : TypeReg) (d' : List Byte) (r : Word), d'.length = d.length ∧ r ≠ crc32 (t'.bytes ++ d') ∧
      (frame t.bytes d).set k b = chunkBytes t' d' r := by
  let r := crc32 (t.bytes ++ d)
  obtain ⟨j, rfl⟩ := Nat.exists_eq_add_of_le' hk4
  have hbodylen : (t.bytes ++ d).length = 4 + d.length := List.length_append
  have hj : j < (t.bytes ++ d).length := by omega
  have hframe : frame t.bytes d = be32 (BitVec.ofNat 32 d.length) ++ ((t.bytes ++ d) ++ be32 r) := by
    simp only [frame_eq _ _ hd, List.append_assoc, r]
  have hbody : (t.bytes ++ d)[j]? ≠ some b := by
    rw [hframe] at hb
    rwa [← List.getElem?_append_left (l₂ := be32 r) hj]
  have hset : (frame t.bytes d).set (j + 4) b =
      be32 (BitVec.ofNat 32 d.length) ++ ((t.bytes ++ d).set j b ++ be32 r) := by
    rw [hframe, ← List.set_append_left _ _ hj]
    rfl
  obtain ⟨t', d', hchanged⟩ := exists_eq_type_append (bs := (t.bytes ++ d).set j b) (by rw [List.length_set]; omega)
  have hlen : d'.length = d.length := by
    have h := congrArg List.length hchanged
    rw [List.length_set, hbodylen, List.length_append] at h
    exact (Nat.add_left_cancel h).symm
  refine ⟨t', d', r, hlen, ?_, ?_⟩
  · rw [← hchanged]
    exact (crc32_set_ne hj hbody).symm
  · rw [hset, hchanged, chunkBytes, hlen, List.append_assoc]

/-! ### The statements -/

/-- Settles O33: the fields of the frame received one after the other, its crc field being the right one. -/
theorem successfulParseRebuildsTheChunk : Obligations.SuccessfulParseRebuildsTheChunk := by
  intro s t d hr hd
  have h32 : d.length < 2 ^ 32 := by omega
  have h := receives_chunk hr.2 hd t (crc32 (t.bytes ++ d))
  rw [← frame_eq_chunkBytes t h32] at h
  refine ⟨s.rxStart, _, exec_rxchunk_of_ready hr, h.deliver_all, if_pos rfl, ?_⟩
  rw [State.parsed, if_pos rfl]
  exact s.payload_holding t h32

/-- Settles O35: the changed frame is received to its end, where its crc field is that of other bytes. -/
theorem changedByteGivesCrcMismatch : Obligations.ChangedByteGivesCrcMismatch := by
  intro s t d k b hr hd hk4 hk hb
  obtain ⟨t', d', r, hlen, hne, hset⟩ := frame_set_eq_chunkBytes t (by omega) hk4 hk hb
  have h := receives_chunk (d := d') hr.2 (hlen.trans_le hd) t' r
  rw [← hset, State.parsed, if_neg hne] at h
  exact ⟨s.rxStart, _, exec_rxchunk_of_ready hr, h.deliver_all, rfl, rfl, rfl⟩

end Sys2Proof.Machine
end

section
/-! PROOFS, any input to the deframer (43_deframer.md R164, R170, R171): it ends inside a chunk, or declares too great a
length, or holds a whole chunk; in the first and the last case `parse_chunk` and the machine come to the same. -/

namespace Sys2Proof.Machine

/-! ### Inputs cut into fields -/

theorem exists_eq_be32_append {bs : List Byte} (h : 4 ≤ bs.length) :
    ∃ (v : Word) (rest : List Byte), bs = be32 v ++ rest :=
  match bs, h with
  | b0 :: b1 :: b2 :: b3 :: rest, _ => ⟨fromBe32 b0 b1 b2 b3, rest, by rw [be32_fromBe32]; rfl⟩

/-- Where as many bytes follow the length field as it declares, and the type and the crc, they are a chunk. -/
theorem exists_eq_chunkBytes_append {n : Word} {rest : List Byte} (h : 8 + n.toNat ≤ rest.length) :
    ∃ (t : TypeReg) (d : List Byte) (r : Word) (left : List Byte),
      d.length = n.toNat ∧ be32 n ++ rest = chunkBytes t d r ++ left := by
  obtain ⟨t, body, rfl⟩ := exists_eq_type_append (bs := rest) (by omega)
  rw [List.length_append, show t.bytes.length = 4 from rfl] at h
  obtain ⟨r, left, hr⟩ := exists_eq_be32_append (bs := body.drop n.toNat) (by rw [List.length_drop]; omega)
  have hlen : (body.take n.toNat).length = n.toNat := by rw [List.length_take]; omega
  have hn : BitVec.ofNat 32 n.toNat = n := by rw [BitVec.ofNat_toNat, BitVec.setWidth_eq]
  refine ⟨t, body.take n.toNat, r, left, hlen, ?_⟩
  simp only [chunkBytes, hlen, hn, List.append_assoc, ← hr, List.take_append_drop]

/-! ### `parse_chunk` by cases (R164) -/

/-- The declared length read back from its field (R10). -/
theorem fromBe32_be32Byte (v : Word) : fromBe32 (be32Byte v 0) (be32Byte v 1) (be32Byte v 2) (be32Byte v 3) = v := by
  apply BitVec.eq_of_getLsbD_eq
  intro k hk
  interval_cases k <;> simp [fromBe32, be32Byte]

theorem parseChunk_chunkBytes (t : TypeReg) {d : List Byte} (hd : d.length < 2 ^ 32) (r : Word) (left : List Byte) :
    parseChunk (chunkBytes t d r ++ left) =
      if Chunk.crc ⟨t, d⟩ = r then .ok (⟨t, d⟩, left) else .fail (.crcf .crcMismatch) := by
  have hn : (BitVec.ofNat 32 d.length).toNat = d.length := Nat.mod_eq_of_lt hd
  have hdata : (d ++ (be32 r ++ left)).take d.length = d := List.take_left
  have hcrc : (d ++ (be32 r ++ left)).drop d.length = be32 r ++ left := List.drop_left
  simp only [chunkBytes, be32, TypeReg.bytes, List.append_assoc, List.cons_append, List.nil_append] at hdata hcrc ⊢
  simp only [parseChunk, fromBe32_be32Byte, hn, hdata, hcrc]

theorem parseChunk_of_short {bs : List Byte} (h : bs.length < 8) : parseChunk bs = .fail (.crcf .unexpectedEof) := by
  unfold parseChunk
  split
  · simp only [List.length_cons] at h
    omega
  · rfl

theorem parseChunk_of_cut {n : Word} {rest : List Byte} (h : rest.length < 8 + n.toNat) :
    parseChunk (be32 n ++ rest) = .fail (.crcf .unexpectedEof) := by
  by_cases h4 : 4 ≤ rest.length
  · obtain ⟨t, body, rfl⟩ := exists_eq_type_append h4
    have hshort : (body.drop n.toNat).length < 4 := by
      rw [List.length_append, show t.bytes.length = 4 from rfl] at h
      rw [List.length_drop]
      omega
    simp only [be32, TypeReg.bytes, List.cons_append, List.nil_append, parseChunk, fromBe32_be32Byte]
    split
    · next hdrop =>
      rw [hdrop] at hshort
      simp only [List.length_cons] at hshort
      omega
    · rfl
  · refine parseChunk_of_short ?_
    rw [List.length_append, show (be32 n).length = 4 from rfl]
    omega

/-! ### The machine by cases (R170) -/

section
variable {s v : State} {xs ys : List Byte}

/-- Within bytes that are received one more is awaited. -/
theorem Receives.awaits_within {pad rest : List Byte} (h : Receives s ys v) (heq : xs ++ pad = ys ++ rest)
    (hl : xs.length < ys.length) : ∃ u, Receives s xs u ∧ u.AwaitsChunk := by
  obtain ⟨zs, rfl, -⟩ | ⟨zs, rfl, -⟩ := List.append_eq_append_iff.mp heq
  · exact h.awaits (by rintro rfl; simp at hl)
  · rw [List.length_append] at hl
    omega

/-- An input that ends in its length field. -/
theorem receives_of_length_lt_four (hn : s.err = .none) (h : xs.length < 4) :
    ∃ u, Receives s.rxStart xs u ∧ u.AwaitsChunk := by
  obtain ⟨n, rest, hpad⟩ := exists_eq_be32_append (bs := xs ++ List.replicate 4 0#8) (by simp)
  exact (receives_length hn n).awaits_within hpad h

/-- An input that ends after its length field and before its chunk does. -/
theorem receives_of_cut (hn : s.err = .none) {n : Word} (hcap : n ≤ s.dataMax) (h : xs.length < 8 + n.toNat) :
    ∃ u, Receives s.rxStart (be32 n ++ xs) u ∧ u.AwaitsChunk := by
  obtain ⟨t, d, r, left, hd, hpad⟩ := exists_eq_chunkBytes_append (n := n)
    (rest := xs ++ List.replicate (8 + n.toNat) 0#8) (by simp)
  rw [← List.append_assoc] at hpad
  refine (receives_chunk hn (by rw [hd]; exact hcap) t r).awaits_within hpad ?_
  rw [chunkBytes_length, hd, List.length_append, show (be32 n).length = 4 from rfl]
  omega

/-- Any input after `RXCHUNK`: it ends inside the chunk, it declares too great a length, or it holds the whole chunk. -/
theorem input_cases (hn : s.err = .none) (bs : List Byte) :
    (∃ u, Receives s.rxStart bs u ∧ u.AwaitsChunk ∧ parseChunk bs = .fail (.crcf .unexpectedEof)) ∨
    (∃ n rest, bs = be32 n ++ rest ∧ s.dataMax < n) ∨
    (∃ t d r left, bs = chunkBytes t d r ++ left ∧ d.length ≤ s.dataMax.toNat) := by
  obtain hshort | h4 := Nat.lt_or_ge bs.length 4
  · obtain ⟨u, hu, hw⟩ := receives_of_length_lt_four hn hshort
    exact .inl ⟨u, hu, hw, parseChunk_of_short (by omega)⟩
  obtain ⟨n, rest, rfl⟩ := exists_eq_be32_append h4
  by_cases hcap : s.dataMax < n
  · exact .inr (.inl ⟨n, rest, rfl, hcap⟩)
  have hcap : n ≤ s.dataMax := BitVec.not_lt.mp hcap
  obtain hcut | hwhole := Nat.lt_or_ge rest.length (8 + n.toNat)
  · obtain ⟨u, hu, hw⟩ := receives_of_cut hn hcap hcut
    exact .inl ⟨u, hu, hw, parseChunk_of_cut hcut⟩
  · obtain ⟨t, d, r, left, hd, heq⟩ := exists_eq_chunkBytes_append hwhole
    exact .inr (.inr ⟨t, d, r, left, heq, by rw [hd]; exact hcap⟩)

/-! ### Bytes delivered beyond the end (R256, R261) -/

theorem deliver_of_faulted (bs : List Byte) (hp : s.phase = .idle) (hn : s.err ≠ .none) : deliver bs s = .next s := by
  have ha : s.phase.autonomous = false := by rw [hp]; rfl
  induction bs with
  | nil => rfl
  | cons b bs ih => rw [deliver, hostSend_accepting _ _ ha, exec_rxb_of_faulted b ha hn]; exact ih

/-- Once the phase is `IDLE` only a delivery of nothing, with no error, ends ready. -/
theorem deliver_idle_to_ready {bs : List Byte} (hp : s.phase = .idle) (h : deliver bs s = .next v) (hv : v.Ready) :
    bs = [] ∧ s = v ∧ s.Ready := by
  by_cases hn : s.err = .none
  · cases bs with
    | nil => cases h; exact ⟨rfl, rfl, hv⟩
    | cons b bs =>
      rw [deliver, hostSend_accepting _ _ (by rw [hp]; rfl), exec_rxb_of_ready b ⟨hp, hn⟩] at h
      have hraise := deliver_of_faulted bs (s := s.raise .badSequence) rfl nofun
      cases hraise.symm.trans h
      cases hv.2
  · rw [deliver_of_faulted bs hp hn] at h
    cases h
    exact absurd hv.2 hn

theorem State.parsed_phase (s : State) (t : TypeReg) (d : List Byte) (r : Word) : (s.parsed t d r).phase = .idle := by
  rw [State.parsed]
  split_ifs <;> rfl

theorem State.parsed_of_eq (s : State) (t : TypeReg) (d : List Byte) :
    s.parsed t d (crc32 (t.bytes ++ d)) =
      { s.holding t d with
        rxlen := BitVec.ofNat 32 d.length, rxcrc := crc32 (t.bytes ++ d), phase := .idle, idx := 0#32 } := if_pos rfl

theorem State.parsed_err_of_ne (s : State) {t : TypeReg} {d : List Byte} {r : Word} (h : r ≠ crc32 (t.bytes ++ d)) :
    (s.parsed t d r).err = .crcMismatch := by rw [State.parsed, if_neg h]; rfl

/-- A delivery that ends ready is that of a whole frame. -/
theorem deliver_to_ready {bs : List Byte} (hn : s.err = .none) (h : deliver bs s.rxStart = .next v) (hv : v.Ready) :
    ∃ t d, d.length ≤ s.dataMax.toNat ∧ bs = frame t.bytes d ∧ v = s.parsed t d (crc32 (t.bytes ++ d)) := by
  obtain ⟨u, hu, hw, -⟩ | ⟨n, rest, rfl, hcap⟩ | ⟨t, d, r, left, rfl, hd⟩ := input_cases hn bs
  case inl =>
    cases hu.deliver_all.symm.trans h
    exact absurd hv.1 hw.ne_idle
  case inr.inl =>
    have hlength := receives_length hn n
    rw [if_pos hcap] at hlength
    rw [hlength.deliver_eq rest] at h
    obtain ⟨-, -, hready⟩ := deliver_idle_to_ready rfl h hv
    cases hready.2
  case inr.inr =>
    rw [(receives_chunk hn hd t r).deliver_eq left] at h
    obtain ⟨rfl, rfl, hready⟩ := deliver_idle_to_ready (s.parsed_phase t d r) h hv
    have hr : r = crc32 (t.bytes ++ d) := by
      by_contra hne
      cases (s.parsed_err_of_ne hne).symm.trans hready.2
    subst hr
    exact ⟨t, d, hd, by rw [List.append_nil, frame_eq_chunkBytes t (by omega)], rfl⟩

end

/-! ### The statements -/

/-- Settles O34: what was delivered is the frame of the chunk now held, and that frame is what `EMIT` sends (O30). -/
theorem parseThenEmitReproducesTheInput : Obligations.ParseThenEmitReproducesTheInput := by
  intro s u v w bs hs hready hrst hu hv hvready hw
  cases (exec_rxchunk_of_ready hready).symm.trans hu
  obtain ⟨t, d, hd, rfl, rfl⟩ := deliver_to_ready hready.2 hv hvready
  have hd32 : d.length < 2 ^ 32 := by omega
  have hinv := (receives_chunk hready.2 hd t (crc32 (t.bytes ++ d))).keeps_inv ((exec_effect hu).keeps_inv hs)
  rw [s.parsed_of_eq] at hinv hvready hw ⊢
  obtain ⟨w', hw', -, hrun⟩ := emitSendsTheFrame _ hinv hvready hrst
  cases hw.symm.trans hw'
  have hlen : (BitVec.ofNat 32 d.length).toNat = d.length := Nat.mod_eq_of_lt hd32
  refine ⟨(frame_length t d hd32).trans (congrArg (12 + ·) hlen.symm), _, hrun, rfl, ?_⟩
  exact congrArg (s.out ++ frame t.bytes ·) (s.payload_holding t hd32)

end Sys2Proof.Machine
end

section
/-! PROOFS, the host's parse on CRCF (43_deframer.md R170, 46_host_container.md R225): a command issued in an autonomous phase
waits for its end, which comes in time (45_control.md R209), and then the feeding rule gives the verdict of `parse_chunk`. -/

namespace Sys2Proof.Machine

/-! ### The hold of a command ends (R15, R209) -/

/-- How many sequencer steps an autonomous phase still takes, up to `IDLE` (R209). -/
def State.stepsLeft (s : State) : Nat :=
  match s.phase with
  | .txSig => 8 - s.idx.toNat
  | .txLen => 12 + s.len.toNat - s.idx.toNat
  | .txType => 8 + s.len.toNat - s.idx.toNat
  | .txData => 4 + s.len.toNat - s.idx.toNat
  | .txCrc => 4 - s.idx.toNat
  | .ccType => 4 + s.len.toNat - s.idx.toNat
  | .ccData => s.len.toNat - s.idx.toNat
  | .idle | .rxSig | .rxLen | .rxType | .rxData | .rxCrc => 0

theorem State.stepsLeft_le (s : State) : s.stepsLeft ≤ 12 + s.len.toNat := by
  unfold State.stepsLeft
  split <;> omega

section
variable {s : State}

theorem exists_getElem?_of_idx {field : List Byte} {i n : Word} (hn : n.toNat = field.length) (hi : i < n) :
    ∃ b, field[i.toNat]? = some b :=
  ⟨_, List.getElem?_eq_getElem (Nat.lt_of_lt_of_eq hi hn)⟩

/-- A sequencer step brings the end of its operation nearer. -/
theorem exists_seqStep (hs : s.Inv) (ha : s.phase.autonomous = true) :
    ∃ u, seqStep s = .next u ∧ u.stepsLeft < s.stepsLeft := by
  have hpos := hs.position
  obtain ⟨len, type, data, crc⟩ := transmitStepsMoveOneByte
  obtain ⟨ccType, ccData⟩ := crcStepsFoldOneByte
  cases hp : s.phase <;> simp only [hp, Phase.autonomous, Bool.false_eq_true] at ha <;>
    simp only [State.PositionOk, hp] at hpos <;> simp only [State.stepsLeft, hp]
  case txSig =>
    obtain ⟨b, hb⟩ := exists_getElem?_of_idx (field := signature) rfl hpos
    simp only [seqStep, hp, seqTxSig, withFieldByte_of_getElem? _ hb]
    split_ifs with hi
    · exact ⟨_, rfl, by simp only [State.goto_phase, State.goto_idx]; bv_omega⟩
    · exact ⟨_, rfl, by simp only [State.goto_phase]; bv_omega⟩
  case txLen =>
    obtain ⟨b, hb⟩ := exists_getElem?_of_idx (field := be32 s.len) rfl hpos
    refine ⟨_, len s b hp hb, ?_⟩
    split_ifs <;> bv_omega
  case txType =>
    obtain ⟨b, hb⟩ := exists_getElem?_of_idx (field := s.t.bytes) rfl hpos
    refine ⟨_, type s b hp hb, ?_⟩
    split_ifs <;> bv_omega
  case txData =>
    obtain ⟨b, hb⟩ := hs.exists_readBuffer hpos
    refine ⟨_, data s b hp hb, ?_⟩
    split_ifs <;> bv_omega
  case txCrc =>
    obtain ⟨b, hb⟩ := exists_getElem?_of_idx (field := be32 (crcFinal s.c)) rfl hpos
    refine ⟨_, crc s b hp hb, ?_⟩
    split_ifs <;> bv_omega
  case ccType =>
    obtain ⟨b, hb⟩ := exists_getElem?_of_idx (field := s.t.bytes) rfl hpos
    refine ⟨_, ccType s b hp hb, ?_⟩
    split_ifs <;> bv_omega
  case ccData =>
    obtain ⟨b, hb⟩ := hs.exists_readBuffer hpos
    refine ⟨_, ccData s b hp hb, ?_⟩
    split_ifs <;> bv_omega

/-- With enough steps allowed an operation in progress runs to its end. -/
theorem exists_settle (hs : s.Inv) (hw : s.phase.waiting = false) {n : Nat} (hn : s.stepsLeft ≤ n) :
    ∃ u, settle n s = .next u ∧ u.phase = .idle ∧ u.Inv ∧ u.err = s.err ∧ u.dataMax = s.dataMax := by
  induction n generalizing s with
  | zero =>
    have ha : s.phase.autonomous = false := by
      by_contra ha
      obtain ⟨u, -, hlt⟩ := exists_seqStep hs (by simpa using ha)
      omega
    exact ⟨s, settle_accepting 0 s ha, Phase.eq_idle ha hw, hs, rfl, rfl⟩
  | succ n ih =>
    cases ha : s.phase.autonomous with
    | false => exact ⟨s, settle_accepting _ s ha, Phase.eq_idle ha hw, hs, rfl, rfl⟩
    | true =>
      obtain ⟨u, hu, hlt⟩ := exists_seqStep hs ha
      obtain ⟨-, -, -, -, -, herr, hmax, -⟩ := sequencerStepFrame s u hu
      rw [settle_autonomous n s u ha hu, ← herr, ← hmax]
      exact ih (seqStep_keeps_inv hs ha hu) (seqStep_position ha hs.position hu).2 (by omega)

/-- A command issued with no error latched and nothing awaited is performed in a ready state (R15). -/
theorem exists_hostSend (hs : s.Inv) (hn : s.err = .none) (hw : s.phase.waiting = false) :
    ∃ u : State, u.Ready ∧ u.Inv ∧ u.dataMax = s.dataMax ∧ ∀ i, hostSend i s = exec i u := by
  obtain ⟨u, hu, hp, hinv, herr, hmax⟩ := exists_settle hs hw s.stepsLeft_le
  exact ⟨u, ⟨hp, herr.trans hn⟩, hinv, hmax, fun i => by rw [hostSend, hu]⟩

/-! ### The feeding rule (R170) -/

theorem feed_of_idle (bs : List Byte) (hp : s.phase = .idle) : feed bs s = .next (s, bs) := by
  cases bs <;> rw [feed, if_pos hp]

/-- The input runs out inside the chunk. -/
theorem feed_nil_of_awaits (h : s.AwaitsChunk) : feed [] s = .next (s.raise .unexpectedEof, []) := by
  rw [feed, if_neg h.ne_idle, hostSend_accepting _ _ h.not_autonomous, h.exec_rxeof]

theorem hostParseChunk_eq_feed {u : State} (bs : List Byte) (h : hostSend .rxchunk s = .next u) :
    hostParseChunk bs s = feed bs u := by
  rw [hostParseChunk, h]

end

/-! ### The statements -/

/-- Settles O36: the command waits for a ready state, and then the input ends inside the chunk, where both sides report the
end, or holds it whole, where both compare the same crc. -/
theorem hostParseAgreesWithParseChunk : Obligations.HostParseAgreesWithParseChunk := by
  intro s bs hs hn hw hcap
  obtain ⟨u, hready, hinv, hmax, hsend⟩ := exists_hostSend hs hn hw
  have hexec := exec_rxchunk_of_ready hready
  have hstart : u.rxStart.Inv := (exec_effect hexec).keeps_inv hinv
  rw [hostParseChunk_eq_feed bs ((hsend .rxchunk).trans hexec)]
  obtain ⟨v, hv, hawaits, hparse⟩ | ⟨n, rest, rfl, hlong⟩ | ⟨t, d, r, left, rfl, hd⟩ := input_cases hready.2 bs
  case inl =>
    have hfeed := (hv.feed_eq []).trans (feed_nil_of_awaits hawaits)
    rw [List.append_nil] at hfeed
    refine ⟨v.raise .unexpectedEof, [], hfeed, rfl, (hv.keeps_inv hstart).bufferOk.inv_raise _, ?_, ?_⟩
    · intro c rest h
      cases hparse.symm.trans h
    · intro e h
      cases hparse.symm.trans h
      rfl
  case inr.inl =>
    have hle := hcap _ _ _ _ rest rfl
    rw [fromBe32_be32Byte, ← hmax] at hle
    exact absurd hlong (BitVec.not_lt.mpr hle)
  case inr.inr =>
    have hchunk := receives_chunk hready.2 hd t r
    have hfeed := (hchunk.feed_eq left).trans (feed_of_idle left (u.parsed_phase t d r))
    have hverdict := parseChunk_chunkBytes t (d := d) (by omega) r left
    refine ⟨u.parsed t d r, left, hfeed, u.parsed_phase t d r, hchunk.keeps_inv hstart, ?_, ?_⟩
    · intro c rest h
      rw [hverdict] at h
      split_ifs at h with hr
      cases h
      rw [← hr, Chunk.crc, u.parsed_of_eq]
      exact ⟨hready.2, congrArg (Chunk.mk t) (u.payload_holding t (by omega)), rfl⟩
    · intro e h
      rw [hverdict] at h
      split_ifs at h with hr
      cases h
      exact u.parsed_err_of_ne (Ne.symm hr)

end Sys2Proof.Machine
end

section
/-! PROOFS, the file signature (44_file_stream.md R180 to R186): its eight bytes sent by `SIG`, and the check of an input
against them. Both go through the positions of the signature in the same way, in a phase of their own. -/

namespace Sys2Proof.Machine

/-! ### `RXB` in phase `RX_SIG` (R184) -/

theorem exec_rxb_of_rxSig {s : State} (b : Byte) (hp : s.phase = .rxSig) (hn : s.err = .none) :
    exec (.rxb b) s = rxbSig b s := by
  rw [exec, execRxb, accept_anyPhase _ (by rw [hp]; rfl) hn, hp]

/-- Settles O21: the rule's three ways, by the comparison and the position. -/
theorem rxbInSignaturePhase : Obligations.RxbInSignaturePhase := by
  intro s b want hp hn hwant
  have hlast (hi : s.idx.toNat = 7) : ¬ s.idx < 7#32 := by
    rw [BitVec.lt_def, hi]
    decide
  rw [exec_rxb_of_rxSig b hp hn, rxbSig, withFieldByte_of_getElem? _ hwant, ← hp]
  exact ⟨fun hb => if_pos hb, fun hb hi => (if_neg (not_not.mpr hb)).trans (if_pos hi),
    fun hb hi => (if_neg (not_not.mpr hb)).trans (if_neg (hlast hi))⟩

/-! ### The positions of the signature (R182, R184) -/

/-- The state at position `k` of the signature in phase `p`, which is `TX_SIG` or `RX_SIG`; past the last byte it is `IDLE`. -/
def State.atSignature (s : State) (p : Phase) (k : Nat) : State :=
  if k < 8 then s.goto p (BitVec.ofNat 32 k) else s.goto .idle 0#32

section
variable {s : State} {p : Phase} {k : Nat}

theorem State.atSignature_of_lt (hk : k < 8) : s.atSignature p k = s.goto p (BitVec.ofNat 32 k) := if_pos hk

theorem State.atSignature_eight : s.atSignature p 8 = s.goto .idle 0#32 := rfl

/-- The jump of R182 and R184: the first seven bytes go on to the next position, the last one ends the phase. -/
theorem State.atSignature_succ (hk : k < 8) :
    s.atSignature p (k + 1) =
      if k < 7 then s.goto p (BitVec.ofNat 32 k + 1#32) else s.goto .idle 0#32 := by
  obtain h | rfl : k < 7 ∨ k = 7 := by omega
  · rw [atSignature_of_lt (by omega), if_pos h, BitVec.ofNat_add]
  · rfl

theorem State.goto_idx_toNat (hk : k < 8) : (s.goto p (BitVec.ofNat 32 k)).idx.toNat = k :=
  Nat.mod_eq_of_lt (by omega)

/-- The byte `SIGNATURE[IDX]` at position `k`. -/
theorem getElem?_signature_goto (hk : k < 8) :
    signature[(s.goto p (BitVec.ofNat 32 k)).idx.toNat]? = some signature[k] := by
  rw [State.goto_idx_toNat hk]
  exact List.getElem?_eq_getElem hk

/-! ### The run of `SIG` (R181, R182) -/

theorem seqStep_atSignature (hk : k < 8) :
    seqStep (s.atSignature .txSig k) = .next ((s.emit signature[k]).atSignature .txSig (k + 1)) := by
  have hlast : (s.goto .txSig (BitVec.ofNat 32 k)).idx < 7#32 ↔ k < 7 := by
    rw [BitVec.lt_def, State.goto_idx_toNat hk]
    rfl
  simp only [State.atSignature_of_lt hk, seqStep, State.goto_phase, seqTxSig,
    withFieldByte_of_getElem? _ (getElem?_signature_goto hk), hlast, State.atSignature_succ hk]
  split_ifs <;> rfl

/-- The state after `k` of the 8 steps of `SIG`, where `s` is the state the command was performed in. -/
def sigState (s : State) (k : Nat) : State :=
  State.atSignature { s with out := s.out ++ signature.take k } .txSig k

theorem sigState_rst : (sigState s k).rst = s.rst := by
  rw [sigState, State.atSignature]
  split_ifs <;> rfl

theorem sigState_autonomous (hk : k < 8) : (sigState s k).phase.autonomous = true := by
  rw [sigState, State.atSignature_of_lt hk]
  rfl

theorem seqStep_sigState (hk : k < 8) : seqStep (sigState s k) = .next (sigState s (k + 1)) := by
  rw [sigState, seqStep_atSignature hk, sigState, List.take_succ_eq_append_getElem hk, ← List.append_assoc]
  rfl

theorem run_sigState (hr : s.rst = []) : Sys2Proof.core.run 8 (sigState s 0) = .next (sigState s 8) := by
  refine run_of_steps (sigState s) 8 fun k hk => ?_
  rw [step_of_autonomous (sigState_rst.trans hr) (sigState_autonomous hk)]
  exact seqStep_sigState hk

theorem sigState_zero : sigState s 0 = { s with phase := .txSig, idx := 0#32 } := by
  rw [sigState, List.take_zero, List.append_nil]
  rfl

/-- After its last step `SIG` has sent the signature, and `IDLE` is the phase it was performed in. -/
theorem sigState_end (hs : s.Inv) (hp : s.phase = .idle) : sigState s 8 = { s with out := s.out ++ signature } := by
  rw [sigState, State.atSignature_eight, State.goto, ← hs.idx_eq_zero hp, ← hp]
  rfl

theorem exec_sig_of_ready (h : s.Ready) : exec .sig s = .next { s with phase := .txSig, idx := 0#32 } :=
  accept_ready .idleOnly (fun s => .next (s.goto .txSig 0#32)) s h.1 h.2

/-! ### An input checked byte by byte (R184, R185) -/

/-- Inside the signature a byte is accepted at once, and the feeding rule goes on from what `RXB` makes of it. -/
theorem feed_cons_atSignature {u : State} {b : Byte} (bs : List Byte) (hk : k < 8)
    (h : exec (.rxb b) (s.atSignature .rxSig k) = .next u) : feed (b :: bs) (s.atSignature .rxSig k) = feed bs u := by
  rw [State.atSignature_of_lt hk] at h ⊢
  rw [feed, if_neg nofun, hostSend_accepting _ _ rfl, h]

/-- The byte awaited. -/
theorem feed_signature_byte (hn : s.err = .none) (hk : k < 8) (bs : List Byte) :
    feed (signature[k] :: bs) (s.atSignature .rxSig k) = feed bs (s.atSignature .rxSig (k + 1)) := by
  refine feed_cons_atSignature bs hk ?_
  have hidx := State.goto_idx_toNat (s := s) (p := .rxSig) hk
  obtain ⟨-, hmore, hlast⟩ :=
    rxbInSignaturePhase (s.goto .rxSig (BitVec.ofNat 32 k)) _ _ rfl hn (getElem?_signature_goto hk)
  rw [State.atSignature_of_lt hk, State.atSignature_succ hk]
  split_ifs with h
  · exact hmore rfl (hidx.trans_lt h)
  · exact hlast rfl (by omega)

/-- Another byte: what comes after it is not looked at. -/
theorem feed_wrong_byte (hn : s.err = .none) (hk : k < 8) {b : Byte} (hb : b ≠ signature[k]) (bs : List Byte) :
    feed (b :: bs) (s.atSignature .rxSig k) = .next (s.raised .invalidSignature, bs) := by
  have hraise : exec (.rxb b) (s.atSignature .rxSig k) = .next (s.raised .invalidSignature) := by
    rw [State.atSignature_of_lt hk]
    exact (rxbInSignaturePhase (s.goto .rxSig (BitVec.ofNat 32 k)) b _ rfl hn (getElem?_signature_goto hk)).1 hb
  exact (feed_cons_atSignature bs hk hraise).trans (feed_of_idle bs rfl)

/-- The input runs out inside the signature (R185). -/
theorem feed_nil_atSignature (hn : s.err = .none) (hk : k < 8) :
    feed [] (s.atSignature .rxSig k) = .next (s.raised .invalidSignature, []) := by
  have heof := exec_rxeof_of_rxSig (s := s.goto .rxSig (BitVec.ofNat 32 k)) rfl hn
  rw [State.atSignature_of_lt hk, feed, if_neg nofun, hostSend_accepting _ _ rfl, heof]
  rfl

/-- The bytes of the signature bring the check from position to position. -/
theorem feed_signature_take (hn : s.err = .none) (hk : k ≤ 8) (bs : List Byte) :
    feed (signature.take k ++ bs) (s.atSignature .rxSig 0) = feed bs (s.atSignature .rxSig k) := by
  induction k generalizing bs with
  | zero => rfl
  | succ k ih =>
    rw [List.take_succ_eq_append_getElem hk, List.append_assoc, ih (by omega), List.singleton_append,
      feed_signature_byte hn hk]

/-- An input that starts with the first `k` bytes of the signature, checked from a ready state. -/
theorem hostCheckSignature_take (hr : s.Ready) (hk : k ≤ 8) (bs : List Byte) :
    hostCheckSignature (signature.take k ++ bs) s = feed bs (s.atSignature .rxSig k) := by
  rw [hostCheckSignature, hostSend_accepting _ _ (by rw [hr.1]; rfl), receiveCommandsStartWaiting.2 s hr]
  exact feed_signature_take hr.2 hk bs

end

/-! ### The statements -/

/-- Settles O32: the command step, and the run to its last state. -/
theorem sigSendsTheSignature : Obligations.SigSendsTheSignature := by
  intro s hs hready hr
  refine ⟨_, exec_sig_of_ready hready, rfl, ?_⟩
  rw [← sigState_zero, run_sigState hr, sigState_end hs hready.1, signature]

/-- Settles O37: the bytes that agree bring the check to position 8, to the byte that differs, or to the end of the input. -/
theorem signatureCheckVerdict : Obligations.SignatureCheckVerdict := by
  intro s bs hr
  refine ⟨fun hbs => ?whole, fun k hk hlen htake hne => ?differs, fun hlen hbs => ?short⟩
  case whole =>
    have hcheck := hostCheckSignature_take hr le_rfl (bs.drop 8)
    rw [show signature.take 8 = bs.take 8 from hbs.symm, List.take_append_drop] at hcheck
    exact hcheck.trans (feed_of_idle _ rfl)
  case differs =>
    have hcheck := hostCheckSignature_take hr hk.le (bs.drop k)
    rw [← htake, List.take_append_drop, List.drop_eq_getElem_cons hlen] at hcheck
    have hb : bs[k] ≠ signature[k] := by
      rwa [List.getElem?_eq_getElem hlen, List.getElem?_eq_getElem hk, Ne, Option.some_inj] at hne
    exact hcheck.trans (feed_wrong_byte hr.2 hk hb _)
  case short =>
    have hcheck := hostCheckSignature_take hr hlen.le []
    rw [← hbs, List.append_nil] at hcheck
    exact hcheck.trans (feed_nil_atSignature hr.2 hlen)

end Sys2Proof.Machine
end

section
/-! PROOFS, the control commands and the progress of the machine (45_control.md R200 to R209): `NOP`, `ECLR` and `SRST`, when
an autonomous phase ends, and that no step stops the machine. -/

namespace Sys2Proof.Machine

/-! ### The control commands (R200 to R202) -/

/-- A command that is always legal is performed wherever it is accepted, with an error latched too (R78). -/
theorem accept_always {s : State} (f : State → Result) (ha : s.phase.autonomous = false) : accept .always f s = f s := by
  simp [accept, ha]

/-- Held, dropped or performed, `NOP` leaves the state (R200). -/
theorem exec_nop (s : State) : exec .nop s = .next s := by
  obtain ⟨-, h⟩ | ⟨-, -, -, h⟩ | ⟨-, -, -, hl, -⟩ | ⟨-, -, -, h⟩ := accept_cases .anyPhase .next s _ rfl
  · exact h
  · exact h
  · cases hl
  · exact h

theorem exec_eclr {s : State} (ha : s.phase.autonomous = false) : exec .eclr s = .next s.clearError :=
  accept_always (fun v => .next v.clearError) ha

theorem exec_srst {s : State} (ha : s.phase.autonomous = false) : exec .srst s = .next s.resetRegisters :=
  accept_always (fun v => .next v.resetRegisters) ha

/-- Settles O13: `SRST` is always legal, and the registers it leaves are the literals of `State.resetWith`. -/
theorem srstResetsEveryRegister : Obligations.SrstResetsEveryRegister :=
  ⟨rfl, fun _ => exec_srst⟩

/-- Settles O16: each way the dispatch answers `NOP`, and the performing of `ECLR`. -/
theorem nopAndEclrEffects : Obligations.NopAndEclrEffects :=
  ⟨rfl, rfl, exec_nop, fun _ => exec_eclr⟩

/-! ### The steps an autonomous phase takes (R209) -/

/-- After each number of steps below `n` the operation is in progress, and after `n` it has ended with no error. -/
def EndsAfter (n : Nat) (u : State) : Prop :=
  (∀ k < n, ∃ v, Sys2Proof.core.run k u = .next v ∧ v.phase.autonomous = true) ∧
    ∃ v, Sys2Proof.core.run n u = .next v ∧ v.phase = .idle ∧ v.err = .none

/-- An operation whose state after each number of steps is known. -/
theorem endsAfter_of_run {n : Nat} (f : Nat → State) (hrun : ∀ k ≤ n, Sys2Proof.core.run k (f 0) = .next (f k))
    (ha : ∀ k < n, (f k).phase.autonomous = true) (hend : (f n).Ready) : EndsAfter n (f 0) :=
  ⟨fun k hk => ⟨f k, hrun k hk.le, ha k hk⟩, f n, hrun n le_rfl, hend⟩

section
variable {s : State}

theorem run_sigState_of_le (hr : s.rst = []) {n : Nat} (hn : n ≤ 8) :
    Sys2Proof.core.run n (sigState s 0) = .next (sigState s n) := by
  refine run_of_steps (sigState s) n fun k hk => ?_
  rw [step_of_autonomous (sigState_rst.trans hr) (sigState_autonomous (by omega))]
  exact seqStep_sigState (by omega)

theorem endsAfter_sig (hs : s.Inv) (hready : s.Ready) (hr : s.rst = []) : EndsAfter 8 (sigState s 0) :=
  endsAfter_of_run (sigState s) (fun _ => run_sigState_of_le hr) (fun _ => sigState_autonomous)
    (by rw [sigState_end hs hready.1]; exact hready)

theorem endsAfter_emit (hs : s.Inv) (hready : s.Ready) (hr : s.rst = []) :
    EndsAfter (12 + s.len.toNat) (emitState s 0) :=
  endsAfter_of_run (emitState s) (fun _ => run_emitState hs hr) (fun _ => emitState_autonomous s)
    (by rw [emitState_end hs hready.1]; exact hready)

theorem endsAfter_ccalc (hs : s.Inv) (hready : s.Ready) (hr : s.rst = []) :
    EndsAfter (4 + s.len.toNat) (ccalcState s 0) :=
  endsAfter_of_run (ccalcState s) (fun _ => run_ccalcState hs hr) (fun _ => ccalcState_autonomous s)
    (by rw [ccalcState_end hs hready.1]; exact hready)

end

/-- Settles O29: the command step of each operation is known, and so is the run from the state it answers. -/
theorem autonomousPhasesEndOnTime : Obligations.AutonomousPhasesEndOnTime := by
  rintro s u i n hs hready hr (⟨rfl, rfl⟩ | ⟨rfl, rfl⟩ | ⟨rfl, rfl⟩) hu
  · rw [exec_sig_of_ready hready, ← sigState_zero] at hu
    cases hu
    exact endsAfter_sig hs hready hr
  · rw [exec_emit_of_ready hready] at hu
    cases hu
    exact endsAfter_emit hs hready hr
  · rw [exec_ccalc_of_ready hready] at hu
    cases hu
    exact endsAfter_ccalc hs hready hr

/-! ### Every command answers a next state (R252)

The accesses that could fault are those of `SIGNATURE[IDX]`, `T[IDX]` and `D[LEN]`; the invariant's range of `IDX` and its
bounds on `LEN` put each of them within its field. -/

section
variable {s : State}

/-- The dispatch answers a next state where the rule does. -/
theorem exists_accept {l : Legality} {f : State → Result} (hf : ∃ u, f s = .next u) : ∃ u, accept l f s = .next u := by
  obtain ⟨-, h⟩ | ⟨-, -, -, h⟩ | ⟨-, -, -, -, h⟩ | ⟨-, -, -, h⟩ := accept_cases l f s _ rfl
  · exact ⟨_, h⟩
  · exact ⟨_, h⟩
  · exact ⟨_, h⟩
  · rwa [h]

theorem exists_rxbSig (b : Byte) (hs : s.Inv) (hp : s.phase = .rxSig) : ∃ u, rxbSig b s = .next u := by
  have hi : s.idx < 8#32 := by simpa only [State.PositionOk, hp] using hs.position
  obtain ⟨want, hwant⟩ := exists_getElem?_of_idx (field := signature) rfl hi
  rw [rxbSig, withFieldByte_of_getElem? _ hwant]
  split_ifs <;> exact ⟨_, rfl⟩

theorem exists_rxbLen (b : Byte) (s : State) : ∃ u, rxbLen b s = .next u := by
  simp only [rxbLen]
  split_ifs <;> exact ⟨_, rfl⟩

theorem exists_rxbType (b : Byte) (hs : s.Inv) (hp : s.phase = .rxType) : ∃ u, rxbType b s = .next u := by
  have hi : s.idx < 4#32 := by simpa only [State.PositionOk, hp] using hs.position
  have hlt : s.idx.toNat < 4 := hi
  rw [rxbType, withTypeIndex, dif_pos hlt]
  dsimp only
  split_ifs <;> exact ⟨_, rfl⟩

theorem exists_withAppended {b : Byte} {k : State → Result} (hl : s.len < s.dataMax) (hk : ∀ u, ∃ v, k u = .next v) :
    ∃ v, withAppended s b k = .next v := by
  rw [withAppended, if_pos hl]
  exact hk _

theorem exists_rxbData (b : Byte) (hs : s.Inv) (hp : s.phase = .rxData) : ∃ u, rxbData b s = .next u := by
  obtain ⟨-, hlt, hmax⟩ := hs.at_rxData hp
  refine exists_withAppended (by bv_omega) fun u => ?_
  dsimp only
  split_ifs <;> exact ⟨_, rfl⟩

theorem exists_rxbCrc (b : Byte) (s : State) : ∃ u, rxbCrc b s = .next u := by
  simp only [rxbCrc]
  split_ifs <;> exact ⟨_, rfl⟩

theorem exists_execRxb (b : Byte) (hs : s.Inv) : ∃ u, execRxb b s = .next u := by
  refine exists_accept ?_
  cases hp : s.phase with
  | rxSig => exact exists_rxbSig b hs hp
  | rxLen => exact exists_rxbLen b s
  | rxType => exact exists_rxbType b hs hp
  | rxData => exact exists_rxbData b hs hp
  | rxCrc => exact exists_rxbCrc b s
  | idle | txSig | txLen | txType | txData | txCrc | ccType | ccData => exact ⟨_, rfl⟩

theorem exists_execRxeof (s : State) : ∃ u, execRxeof s = .next u := by
  refine exists_accept ?_
  cases s.phase <;> exact ⟨_, rfl⟩

/-- A buffer that is not full has room for a byte (R41, invariant 1). -/
theorem exists_execDpush (b : Byte) (hs : s.Inv) : ∃ u, execDpush b s = .next u := by
  refine exists_accept ?_
  split_ifs with hfull
  · exact ⟨_, rfl⟩
  · have hcap := hs.capacity
    exact exists_withAppended (by bv_omega) fun _ => ⟨_, rfl⟩

theorem exists_exec (i : Instr) (hs : s.Inv) : ∃ u, exec i s = .next u := by
  cases i with
  | dpush b => exact exists_execDpush b hs
  | rxb b => exact exists_execRxb b hs
  | rxeof => exact exists_execRxeof s
  | nop | eclr | srst | cinit | cupd | ccalc | ldt0 | ldt1 | ldt2 | ldt3 | dclr | sig | emit | rxsig | rxchunk =>
    apply exists_accept
    exact ⟨_, rfl⟩

theorem exists_cmdStep (w : CmdWord) (hs : s.Inv) : ∃ u, cmdStep w s = .next u := by
  unfold cmdStep
  split
  · next i _ => exact exists_exec i hs
  · unfold acceptReserved
    split_ifs <;> exact ⟨_, rfl⟩

end

/-- Settles O43, by the kind of step: reset, sequencer, wait, command. -/
theorem noStepStopsTheMachine : Obligations.NoStepStopsTheMachine := by
  intro s hs
  obtain ⟨w, rs, -, h⟩ | ⟨-, ⟨ha, h⟩ | ⟨-, -, h⟩ | ⟨w, ws, -, -, h⟩⟩ := step_cases s _ rfl
  · exact ⟨_, h⟩
  · obtain ⟨u, hu, -⟩ := exists_seqStep (hs.withHost s.words s.rst.tail) ha
    exact ⟨u, h.trans hu⟩
  · exact ⟨_, h⟩
  · obtain ⟨u, hu⟩ := exists_cmdStep w (hs.withHost ws s.rst.tail)
    exact ⟨u, h.trans hu⟩

end Sys2Proof.Machine
end

section
/-! PROOFS, the file container (46_host_container.md R224, R225, R232): the reference parser takes a serialized file apart
one frame at a time. -/

namespace Sys2Proof.Machine

/-- R164 on a serialized chunk (R144), whatever bytes follow it. -/
theorem parseChunk_bytes_append {c : Chunk} (hc : c.data.length < 2 ^ 32) (left : List Byte) :
    parseChunk (c.bytes ++ left) = .ok (c, left) := by
  rw [Chunk.bytes, frame_eq_chunkBytes c.type hc, parseChunk_chunkBytes c.type hc]
  exact if_pos rfl

/-- One round of the loop of R225: no chunk is parsed from an empty rest, so the loop does not end here. -/
theorem parseChunks_succ_of_parseChunk {bs rest : List Byte} {c : Chunk} {p : Png} {fuel : Nat}
    (hc : parseChunk bs = .ok (c, rest)) (hp : parseChunks fuel rest = .ok p) :
    parseChunks (fuel + 1) bs = .ok (c :: p) := by
  cases bs with
  | nil => cases hc
  | cons b bs => simp only [parseChunks, hc, hp]

/-- A round takes one chunk, so as many rounds as there are chunks are enough. -/
theorem parseChunks_flatMap_bytes {p : Png} (hp : ∀ c ∈ p, c.data.length < 2 ^ 32) {fuel : Nat}
    (hfuel : p.length ≤ fuel) : parseChunks fuel (p.flatMap Chunk.bytes) = .ok p := by
  induction p generalizing fuel with
  | nil => cases fuel <;> rfl
  | cons c p ih =>
    obtain ⟨hc, hp⟩ := List.forall_mem_cons.mp hp
    obtain _ | fuel := fuel
    · cases hfuel
    · rw [List.flatMap_cons]
      exact parseChunks_succ_of_parseChunk (parseChunk_bytes_append hc _) (ih hp (Nat.le_of_succ_le_succ hfuel))

/-- A frame is not empty, so there are at least as many bytes as chunks and the fuel of `parsePng` is enough. -/
theorem length_le_length_flatMap_bytes {p : Png} (hp : ∀ c ∈ p, c.data.length < 2 ^ 32) :
    p.length ≤ (p.flatMap Chunk.bytes).length := by
  induction p with
  | nil => exact Nat.zero_le _
  | cons c p ih =>
    obtain ⟨hc, hp⟩ := List.forall_mem_cons.mp hp
    have hlen : c.bytes.length = 12 + c.data.length := frame_length c.type c.data hc
    have hrest := ih hp
    rw [List.flatMap_cons, List.length_append, List.length_cons, hlen]
    omega

/-- Step 1 of R225, on bytes that begin with the signature. -/
theorem parsePng_signature_append (bs : List Byte) : parsePng (signature ++ bs) = parseChunks (8 + bs.length) bs := by
  have hlen : signature.length = 8 := rfl
  rw [parsePng, List.take_left' hlen, List.drop_left' hlen, if_pos rfl, List.length_append, hlen]

/-- Settles O38: behind the signature stand the frames, and each round of the loop takes one. -/
theorem fileRoundTrip : Obligations.FileRoundTrip := by
  intro p hp
  rw [Png.bytes, parsePng_signature_append]
  exact parseChunks_flatMap_bytes hp (Nat.le_add_left_of_le (length_le_length_flatMap_bytes hp))

end Sys2Proof.Machine
end

section
/-! PROOFS, the reset step and the wait for the host (70_reset_and_hazards.md R290, 60_exceptions.md R275). -/

namespace Sys2Proof.Machine

/-- An asserted sample makes the step a reset step, whatever the phase, the latch and the port hold (R13). -/
theorem step_of_asserted {s : State} {withdraw : Bool} {rs : List ResetSample} (h : s.rst = .asserted withdraw :: rs) :
    step s = .next (resetStep withdraw { s with rst := rs }) := by
  rw [step, cycle, h]

/-- Settles O11: the registers after a reset step are the literals of `State.resetWith`, and the sample decides the held word. -/
theorem resetStepIsTotal : Obligations.ResetStepIsTotal := by
  intro s withdraw rs h
  rw [step_of_asserted h]
  cases withdraw with
  | false => rfl
  | true => rfl

theorem runStep_of_no_word {s : State} (ha : s.phase.autonomous = false) (hw : s.words = []) : runStep s = .next s := by
  simp [runStep, ha, hw]

/-- Settles O10: with reset released the step is `runStep`, which finds no word on the port. -/
theorem machineWaitsForTheHost : Obligations.MachineWaitsForTheHost := by
  intro s hr ha hw
  calc step s
      = runStep { s with rst := s.rst.tail } := step_of_resetReleased s hr
    _ = .next { s with rst := s.rst.tail } := runStep_of_no_word ha hw

end Sys2Proof.Machine
end

section
/-! PROOFS, the dispatch in the faulted state and out of sequence (60_exceptions.md R256, R261), and what cannot fail (R252). -/

namespace Sys2Proof.Machine

/-! ### The legality of each command (R78) -/

/-- Where the dispatch rule lets each command be performed. -/
def legality : Instr → Legality
  | .eclr | .srst => .always
  | .nop | .rxb _ | .rxeof => .anyPhase
  | .cinit | .cupd _ | .ccalc | .ldt0 _ | .ldt1 _ | .ldt2 _ | .ldt3 _ | .dclr | .dpush _ | .sig | .emit | .rxsig
  | .rxchunk => .idleOnly

/-- Every command's meaning is a rule of its own behind the dispatch at the command's legality. -/
theorem exists_exec_eq_accept (i : Instr) : ∃ f : State → Result, ∀ s : State, exec i s = accept (legality i) f s := by
  cases i <;> exact ⟨_, fun _ => rfl⟩

theorem legality_ne_always {i : Instr} (heclr : i ≠ .eclr) (hsrst : i ≠ .srst) : legality i ≠ .always := by
  cases i with
  | eclr => exact absurd rfl heclr
  | srst => exact absurd rfl hsrst
  | _ => exact nofun

theorem legality_eq_idleOnly {i : Instr} (hnop : i ≠ .nop) (heclr : i ≠ .eclr) (hsrst : i ≠ .srst) (hrxeof : i ≠ .rxeof)
    (hrxb : ∀ b, i ≠ .rxb b) : legality i = .idleOnly := by
  cases i with
  | nop => exact absurd rfl hnop
  | eclr => exact absurd rfl heclr
  | srst => exact absurd rfl hsrst
  | rxeof => exact absurd rfl hrxeof
  | rxb b => exact absurd rfl (hrxb b)
  | _ => rfl

section
variable {s : State} {w : CmdWord} {ws : List CmdWord}

/-! ### The faulted state (R256) -/

theorem accept_of_faulted {l : Legality} (f : State → Result) (ha : s.phase.autonomous = false) (hn : s.err ≠ .none)
    (hl : l ≠ .always) : accept l f s = .next s := by
  simp [accept, ha, hn, hl]

theorem exec_of_faulted {i : Instr} (ha : s.phase.autonomous = false) (hn : s.err ≠ .none) (heclr : i ≠ .eclr)
    (hsrst : i ≠ .srst) : exec i s = .next s := by
  obtain ⟨f, hf⟩ := exists_exec_eq_accept i
  rw [hf, accept_of_faulted f ha hn (legality_ne_always heclr hsrst)]

theorem acceptReserved_of_faulted (ha : s.phase.autonomous = false) (hn : s.err ≠ .none) : acceptReserved s = .next s := by
  simp [acceptReserved, ha, hn]

/-- A word is dropped whether it decodes to a command or is reserved. -/
theorem cmdStep_of_faulted (ha : s.phase.autonomous = false) (hn : s.err ≠ .none) (heclr : decode w ≠ .command .eclr)
    (hsrst : decode w ≠ .command .srst) : cmdStep w s = .next s := by
  unfold cmdStep
  split
  · next i hd =>
    rw [hd] at heclr hsrst
    exact exec_of_faulted ha hn (fun h => heclr (congrArg _ h)) (fun h => hsrst (congrArg _ h))
  · exact acceptReserved_of_faulted ha hn

theorem step_of_word (hr : s.resetReleased = true) (ha : s.phase.autonomous = false) (hw : s.words = w :: ws) :
    step s = cmdStep w { s with words := ws, rst := s.rst.tail } :=
  (step_of_resetReleased s hr).trans (runStep_of_word _ w ws ha hw)

end

/-- Settles O14: the accepted word comes to the command step, which drops it unless it is `ECLR` or `SRST`. -/
theorem faultedMachineDropsEveryWord : Obligations.FaultedMachineDropsEveryWord := by
  intro s w ws hr ha hn hw
  rw [step_of_word hr ha hw]
  refine ⟨fun heclr hsrst => cmdStep_of_faulted ha hn heclr hsrst, fun hd => ?eclr, fun hd => ?srst⟩
  case eclr => exact (cmdStep_of_command w _ _ hd).trans (exec_eclr ha)
  case srst => exact (cmdStep_of_command w _ _ hd).trans (exec_srst ha)

/-! ### Out of sequence (R261) -/

/-- No waiting phase is autonomous (R29). -/
theorem Phase.not_autonomous_of_waiting {p : Phase} (hw : p.waiting = true) : p.autonomous = false := by
  cases p with
  | rxSig | rxLen | rxType | rxData | rxCrc => rfl
  | idle | txSig | txLen | txType | txData | txCrc | ccType | ccData => cases hw

theorem accept_idleOnly_of_receiving {s : State} (f : State → Result) (h : s.Receiving) :
    accept .idleOnly f s = .next (s.raise .badSequence) := by
  obtain ⟨hw, hn⟩ := h
  simp [accept, Phase.not_autonomous_of_waiting hw, hn, hw]

/-- Settles O15: in `IDLE` no byte is awaited, and in a waiting phase the commands meant are those legal in `IDLE` only. -/
theorem outOfSequenceCommandsRaiseBadSequence : Obligations.OutOfSequenceCommandsRaiseBadSequence := by
  refine ⟨fun s b hr => exec_rxb_of_ready b hr, fun s i hs hnop heclr hsrst hrxeof hrxb => ?_⟩
  obtain ⟨f, hf⟩ := exists_exec_eq_accept i
  rw [hf, legality_eq_idleOnly hnop heclr hsrst hrxeof hrxb]
  exact accept_idleOnly_of_receiving f hs

/-! ### What cannot fail (R252) -/

section
variable {s : State}

/-- In a ready state the dispatch answers what the rule does. -/
theorem accept_of_ready_no_error {l : Legality} {f : State → Result} (hr : s.Ready)
    (hf : ∃ u, f s = .next u ∧ u.err = .none) : ∃ u, accept l f s = .next u ∧ u.err = .none := by
  rwa [accept_ready l f s hr.1 hr.2]

/-- In a ready state a command with nothing to raise in `IDLE` is performed, and its rule latches no error. -/
theorem exec_of_ready_of_raises_nil {i : Instr} (hr : s.Ready) (hi : raises i .idle = []) :
    ∃ u, exec i s = .next u ∧ u.err = .none := by
  cases i with
  | dpush b | rxb b => cases hi
  | rxeof => exact ⟨s, exec_rxeof_of_ready hr, hr.2⟩
  | eclr | srst =>
    apply accept_of_ready_no_error hr
    exact ⟨_, rfl, rfl⟩
  | nop | cinit | cupd | ccalc | ldt0 | ldt1 | ldt2 | ldt3 | dclr | sig | emit | rxsig | rxchunk =>
    apply accept_of_ready_no_error hr
    exact ⟨_, rfl, hr.2⟩

end

/-- Settles O44: the latch is in the frame of a sequencer step, and the commands named have nothing to raise in `IDLE`. -/
theorem whatCannotFail : Obligations.WhatCannotFail := by
  refine ⟨fun s u _ h => ?sequencer, fun s i hr hi => exec_of_ready_of_raises_nil hr ?_⟩
  case sequencer =>
    obtain ⟨-, -, -, -, -, herr, -⟩ := sequencerStepFrame s u h
    exact herr
  obtain hi | ⟨b, hi⟩ := hi
  · exact (by decide : ∀ i ∈ [Instr.nop, .eclr, .srst, .cinit, .ccalc, .dclr, .sig, .emit, .rxsig, .rxchunk],
      raises i .idle = []) i hi
  · simp only [List.mem_cons, List.not_mem_nil, or_false] at hi
    obtain rfl | rfl | rfl | rfl | rfl := hi <;> rfl

end Sys2Proof.Machine
end
